-- ==== Sys2Proof/Word.lean ====
section
/-! DEFINITION. The word types of the block (spec 00_scope.md R5; widths W, FR_W and CNT_W of R4). -/

namespace Sys2Proof

/-- A `W`-bit value, `W = 32` (R4, decision D2): `MS`, `OVF`, `RDATA`. Unsigned (R5). -/
abbrev Word := BitVec 32

/-- An 8-bit value: `FR` (R11) and `CNT` (R14). Unsigned. -/
abbrev Byte := BitVec 8

/-- A 16-bit value: the truncated clock of the `delay` client (R101). Unsigned. -/
abbrev Half := BitVec 16

/-- A 4-bit operation code `OP[3:0]` (R40). -/
abbrev OpCode := BitVec 4

end Sys2Proof
end

