-- ==== Sys2Proof/Syntax.lean ====
section
/-! DEFINITION. The operation set (spec 30_encoding.md R40, R41): nine operations without operands, the two formats,
the three agents that issue operations, and one element of a schedule. -/

namespace Sys2Proof

/-- The two formats, told apart by bit 3 of the code (R40). -/
inductive Format where
  /-- H: issued by the host on the command port; answers a response (R44). -/
  | host
  /-- E: issued by the block's own agents; answers nothing. -/
  | event
  deriving DecidableEq, Repr

/-- The three agents of R36. -/
inductive Source where
  /-- The foreground context (R121). -/
  | host
  /-- The timer peripheral, which issues CNT only (R42). -/
  | timer
  /-- The interrupt context, which issues TICK only (R42). -/
  | handler
  deriving DecidableEq, Repr

/-- The operations, one constructor per row of spec/opcode_table.json (R41). No operation has an operand (R45). -/
inductive Instr where
  /-- NOP, code 0x0 (R85). -/
  | nop
  /-- MILLIS, code 0x1 (R75). -/
  | millis
  /-- MICROS, code 0x2 (R77 to R79). -/
  | micros
  /-- TSTART, code 0x4 (R86). -/
  | tstart
  /-- TSTOP, code 0x5 (R87). -/
  | tstop
  /-- IDIS, code 0x6 (R88). -/
  | idis
  /-- IEN, code 0x7 (R89). -/
  | ien
  /-- TICK, code 0x8 (R66). -/
  | tick
  /-- CNT, code 0x9 (R96). -/
  | cnt
  deriving DecidableEq, Repr

/-- One element of a schedule: an agent presents a 4-bit code (R36, R42). The agent is part of it, since the host may
present the codes 0x8 and 0x9 too and they are illegal from there (R43). -/
structure Event where
  /-- Who presents the code. -/
  source : Source
  /-- The code presented. -/
  code : OpCode
  deriving DecidableEq, Repr

end Sys2Proof
end

