-- ==== Sys2Proof/Decode.lean ====
section
/-! DEFINITION. The decoder and the encoder of the 4-bit operation codes (spec 30_encoding.md R40 to R46), written from
the map of R41. -/

namespace Sys2Proof

/-- Why a presented code is no operation. -/
inductive DecodeError where
  /-- A code that is illegal from the host: 0x3 and 0x8 to 0xF (R43). The block answers `RERR = 1`. -/
  | illegalOp (code : OpCode)
  /-- A code that the timer or the handler never issues (R42, 93_implementation_defined.md U17). -/
  | neverIssued (source : Source) (code : OpCode)
  deriving DecidableEq, Repr

/-- Decoding of a code on the host command port (R42). -/
def decodeHost : OpCode → Except DecodeError Instr
  | 0x0#4 => .ok .nop
  | 0x1#4 => .ok .millis
  | 0x2#4 => .ok .micros
  | 0x4#4 => .ok .tstart
  | 0x5#4 => .ok .tstop
  | 0x6#4 => .ok .idis
  | 0x7#4 => .ok .ien
  | c => .error (.illegalOp c)

/-- `decode : (source, OP[3:0]) -> operation | illegal` (R42), total. -/
def decode (source : Source) (code : OpCode) : Except DecodeError Instr :=
  match source with
  | .host => decodeHost code
  | .timer => if code = 0x9#4 then .ok .cnt else .error (.neverIssued .timer code)
  | .handler => if code = 0x8#4 then .ok .tick else .error (.neverIssued .handler code)

/-- The code of an operation (R41). -/
def encode : Instr → OpCode
  | .nop => 0x0#4
  | .millis => 0x1#4
  | .micros => 0x2#4
  | .tstart => 0x4#4
  | .tstop => 0x5#4
  | .idis => 0x6#4
  | .ien => 0x7#4
  | .tick => 0x8#4
  | .cnt => 0x9#4

/-- The agent that issues an operation (R36, R41). -/
def Instr.issuer : Instr → Source
  | .nop => .host
  | .millis => .host
  | .micros => .host
  | .tstart => .host
  | .tstop => .host
  | .idis => .host
  | .ien => .host
  | .tick => .handler
  | .cnt => .timer

/-- The format field `FMT`, bit 3 of a code (R40). -/
def formatOf (code : OpCode) : Format :=
  if code.getLsbD 3 then .event else .host

/-- The operation number `OPN`, bits 2:0 of a code (R40). -/
def operationNumber (code : OpCode) : BitVec 3 :=
  code.extractLsb' 0 3

/-- The schedule element with which an operation is issued by its own agent. -/
def Instr.event (i : Instr) : Event :=
  { source := i.issuer, code := encode i }

/-- The schedule element of TICK. -/
def tickEvent : Event := Instr.event .tick

/-- The schedule element of CNT. -/
def cntEvent : Event := Instr.event .cnt

/-- The schedule element a bare 4-bit code of the table stands for: 0x8 is the handler's and 0x9 the timer's, every
other code is read as presented by the host. DESIGN CHOICE (notes/assumptions/10.md). -/
def eventOfCode (code : OpCode) : Event :=
  if code = 0x8#4 then { source := .handler, code := code }
  else if code = 0x9#4 then { source := .timer, code := code }
  else { source := .host, code := code }

/-- The low `nbits` bits of `w` as a code: nothing where they do not fit the four bits of a code (R40, R46). -/
def codeOfTableWord (nbits w : Nat) : Option OpCode :=
  if w % 2 ^ nbits < 16 then some (BitVec.ofNat 4 (w % 2 ^ nbits)) else none

/-- The schedule element that a word of spec/opcode_table.json stands for. -/
def eventOfTableWord (nbits w : Nat) : Option Event :=
  (codeOfTableWord nbits w).map eventOfCode

/-- The operation the decoder reads from a word of the table: none where it refuses. -/
def decodeTableWord (nbits w : Nat) : Option Instr :=
  match eventOfTableWord nbits w with
  | none => none
  | some e =>
    match decode e.source e.code with
    | .ok i => some i
    | .error _ => none

end Sys2Proof
end

