-- ==== Sys2Proof/Config.lean ====
section
/-! DEFINITION. The parameters of the block (spec 00_scope.md R4, 10_state.md R20): the configuration record, the
reasons the calculator refuses a clock, and the latency parameter. -/

namespace Sys2Proof

/-- The configuration record `Cfg` of R4: constants fixed at elaboration, which no operation writes (R20). The
record is plain data; `Cfg.Valid` (WellFormed.lean) states the constraints of R22. -/
structure Cfg where
  /-- `F_CPU`, the CPU clock frequency in cycles per second. -/
  fCpu : Nat
  /-- `DIVISOR`, the prescaler divisor. -/
  divisor : Nat
  /-- `PSC_SEL`, the 3-bit code of the divisor; no operation reads it (R54). -/
  pscSel : Nat
  /-- `PERIOD`, timer ticks per overflow. -/
  period : Nat
  /-- `US_PER_TICK`, the factor of MICROS. -/
  usPerTick : Nat
  /-- `US_PER_OVF`, microseconds per overflow. -/
  usPerOvf : Nat
  /-- `MILLIS_INC`, whole milliseconds per overflow. -/
  millisInc : Nat
  /-- `FRACT_INC`, fractional increment per overflow. -/
  fractInc : Nat
  /-- `FRACT_MAX`, the fractional ceiling. -/
  fractMax : Nat
  deriving DecidableEq, Repr

/-- Why the calculator refuses a clock frequency (R60, R110). No block exists then. -/
inductive ConfigError where
  /-- No divisor of the set passes the selection test: `F_CPU >= 32_768_000` (R60 (a)). -/
  | clockTooFast
  /-- `F_CPU < 1000`, which would give a timer with no period (R60 (b)). -/
  | clockTooSlow
  deriving DecidableEq, Repr

/-- The parameter `HANDLER_LATENCY` (R115). -/
inductive HandlerLatency where
  /-- While TICK is enabled, any operation may come before it. -/
  | any
  /-- Whenever TICK is enabled, TICK is the next operation. -/
  | immediate
  deriving DecidableEq, Repr

/-- `DIVSET`, the fixed ordered set of prescaler divisors (R4). -/
def divSet : List Nat := [1, 2, 4, 8, 16, 32, 64, 128]

/-- `COUNT_LIMIT`, the timer's count range limit (R4). -/
def countLimit : Nat := 256

/-- Microseconds in a second, the factor of R55 and R56. -/
def usPerSecond : Nat := 1000000

/-- The configuration at 16 MHz: the source's example, first row of R63. DESIGN CHOICE (notes/assumptions/2.md):
the instance that `State.reset` carries; unsafe for a statement that rests on it. -/
def Cfg.source16MHz : Cfg :=
  { fCpu := 16000000, divisor := 64, pscSel := 6, period := 250, usPerTick := 4, usPerOvf := 1000,
    millisInc := 1, fractInc := 0, fractMax := 125 }

end Sys2Proof
end

