-- ==== Sys2Proof/Machine/Calc.lean ====
section
/-! DEFINITION. The prescaler constant calculator CALC (spec 40_prescaler_calculator.md R50 to R63): a pure function of
`F_CPU` over the natural numbers with floor division (R7 (c)), evaluated once at elaboration. -/

namespace Sys2Proof.Machine

/-- `CPM`, CPU clock cycles per millisecond (R51). -/
def cyclesPerMs (fCpu : Nat) : Nat := fCpu / 1000

/-- The selection: the first divisor of the ordered set for which `CPM div d < 256` (R52). -/
def selectDivisor (cpm : Nat) : Option Nat :=
  divSet.find? fun d => decide (cpm / d < countLimit)

/-- `PSC_SEL`, the position of the divisor in the ordered set, counted from 0 (R54). -/
def prescalerCode (divisor : Nat) : Nat := divSet.idxOf divisor

/-- `PERIOD` (R53). -/
def periodOf (cpm divisor : Nat) : Nat := cpm / divisor

/-- `US_PER_TICK` (R55). -/
def usPerTickOf (fCpu divisor : Nat) : Nat := divisor * usPerSecond / fCpu

/-- `US_PER_OVF` (R56). -/
def usPerOvfOf (fCpu divisor period : Nat) : Nat := divisor * period * usPerSecond / fCpu

/-- `MILLIS_INC` (R57). -/
def millisIncOf (usPerOvf : Nat) : Nat := usPerOvf / 1000

/-- `FRACT_INC` (R58): the microseconds beyond whole milliseconds, in units of 8 microseconds. -/
def fractIncOf (usPerOvf : Nat) : Nat := (usPerOvf % 1000) >>> 3

/-- `FRACT_MAX` (R59). -/
def fractMaxOf : Nat := 1000 >>> 3

/-- The nine constants for a clock and the divisor selected for it (R53 to R59). -/
def constantsFor (fCpu divisor : Nat) : Cfg :=
  let period := periodOf (cyclesPerMs fCpu) divisor
  let usPerOvf := usPerOvfOf fCpu divisor period
  { fCpu := fCpu, divisor := divisor, pscSel := prescalerCode divisor, period := period,
    usPerTick := usPerTickOf fCpu divisor, usPerOvf := usPerOvf, millisInc := millisIncOf usPerOvf,
    fractInc := fractIncOf usPerOvf, fractMax := fractMaxOf }

/-- `CALC : F_CPU -> Cfg | ConfigError` (R50, R60). -/
def calculate (fCpu : Nat) : Except ConfigError Cfg :=
  if fCpu < 1000 then .error .clockTooSlow
  else
    match selectDivisor (cyclesPerMs fCpu) with
    | none => .error .clockTooFast
    | some d => .ok (constantsFor fCpu d)

/-- Exactness conditions (X1) to (X5) of R62, on a record and the clock it was made for. -/
abbrev exactCfg (c : Cfg) : Prop :=
  c.fCpu % 1000 = 0 ∧
  cyclesPerMs c.fCpu % c.divisor = 0 ∧
  c.divisor * usPerSecond % c.fCpu = 0 ∧
  c.divisor * c.period * usPerSecond % c.fCpu = 0 ∧
  c.usPerOvf % 1000 % 8 = 0

/-- Microseconds the millisecond clock counts per serviced overflow under the calculator's constants (R72, R84). -/
def usCountedByMillis (c : Cfg) : Nat := 1000 * c.millisInc + 8 * c.fractInc

/-- Microseconds the microsecond clock counts per overflow (R84). -/
def usCountedByMicros (c : Cfg) : Nat := c.period * c.usPerTick

/-- The residual error per overflow that the shift of R58 leaves, in microseconds (R72). -/
def residualPerOverflow (c : Cfg) : Nat := c.usPerOvf - usCountedByMillis c

/-- Length of one tick in CPU clock cycles (R145): timing only, no rule depends on it. -/
def tickCycles (c : Cfg) : Nat := c.divisor

/-- Length of one period in CPU clock cycles (R145): timing only, no rule depends on it. -/
def periodCycles (c : Cfg) : Nat := c.divisor * c.period

end Sys2Proof.Machine
end

