-- ==== Sys2Proof/Machine/State.lean ====
section
/-! DEFINITION. The state of the block (spec 10_state.md), the reasons a step is none, and the state after reset
(spec 10_state.md R27, 70_reset_and_hazards.md R130). -/

namespace Sys2Proof.Machine

/-- What stops a running block with a fault: nothing. The one run-time fault of the spec, `IllegalOp`, changes no
register, is answered on the response port and the block goes on (R111), so it is a next state; `ClockTooFast` and
`ClockTooSlow` are results of the calculator, before any block exists (R110). No constructor, so no step can end here:
safe. See notes/assumptions/8.md. -/
inductive Fault where
  deriving DecidableEq, Repr

/-- Why the model takes no step. Each is a situation in which the spec gives the block no transition; the model stops
where no run of the block goes on, so each is safe. -/
inductive Refusal where
  /-- Raised by `exec` for an operation that has no meaning yet; no arm raises it. Safe. -/
  | notModelled (mnemonic : String)
  /-- Raised by `step` when the schedule is empty: no agent issues an operation, the run so far is a prefix (R26,
  R146). Safe. See notes/assumptions/4.md. -/
  | noOperation
  /-- Raised by `issue` when the record `cfg` violates R22: it is not a configuration and no block exists (R110,
  93_implementation_defined.md U20). Safe. See notes/assumptions/12.md. -/
  | notAConfiguration
  /-- Raised by `issue` when the latency is `immediate`, TICK is enabled and something else is presented: such a
  schedule is no run (R115 (b)). Safe. See notes/assumptions/6.md. -/
  | handlerFirst
  /-- Raised by `issue` for a code that the timer or the handler never issues (R42, U17). Safe. See
  notes/assumptions/11.md. -/
  | neverIssued (source : Source) (code : OpCode)
  /-- Raised by the meaning of TICK when `UIF`, `UIE` and `GIE` are not all 1: it has no step (R42, R65, U18). Safe.
  See notes/assumptions/5.md. -/
  | tickNotEnabled
  /-- Raised by the meaning of CNT when `CEN = 0`: it has no step (R42, R95, U18). Safe. See notes/assumptions/5.md. -/
  | counterStopped
  deriving DecidableEq, Repr

/-- The response to a host operation (R44). -/
structure Response where
  /-- `RDATA[31:0]`. -/
  rdata : Word
  /-- `RERR`. -/
  rerr : Bool
  deriving DecidableEq, Repr

/-- The state: the eight registers of R10 to R18, the response port of R44, and the parameters of the step relation
that R20 and R21 name (the configuration, the latency, the schedule), which the fixed type of `step` leaves no other
place for (notes/assumptions/1.md). -/
@[ext]
structure State where
  /-- `MS`, the MillisAccumulator (R10). -/
  ms : Word
  /-- `FR`, the FractionalRemainder (R11). -/
  fr : Byte
  /-- `OVF`, the OverflowCount (R12). -/
  ovf : Word
  /-- `CNT`, the live counter of the timer (R14). -/
  cnt : Byte
  /-- `UIF`, the pending-overflow flag (R15). -/
  uif : Bool
  /-- `CEN`, counter enable (R16). -/
  cen : Bool
  /-- `UIE`, update interrupt enable (R17). -/
  uie : Bool
  /-- `GIE`, global interrupt enable (R18). -/
  gie : Bool
  /-- The response of the operation just done; none after an event operation (R44) and none at reset
  (notes/assumptions/7.md). -/
  resp : Option Response
  /-- `Cfg`, fixed at elaboration (R20). -/
  cfg : Cfg
  /-- `HANDLER_LATENCY` (R115). -/
  latency : HandlerLatency
  /-- What the agents issue next, oldest first (R36, R21 (a)). The model's own field. -/
  schedule : List Event
  deriving DecidableEq, Repr

/-- The reset state of a block elaborated with a configuration and a latency: every register 0 (R27, R130), the
constants as elaboration fixed them (R131), no response yet and nothing issued yet. -/
def State.resetWith (c : Cfg) (l : HandlerLatency) : State :=
  { ms := 0, fr := 0, ovf := 0, cnt := 0, uif := false, cen := false, uie := false, gie := false,
    resp := none, cfg := c, latency := l, schedule := [] }

/-- The machine right after reset (R27, R130). Every register is as the spec states it. DESIGN CHOICE: the OPEN
parameter `F_CPU` is the source's example of 16 MHz here (notes/assumptions/2.md); the latency is the spec's default
`any` (R115, notes/assumptions/3.md). -/
def State.reset : State := State.resetWith Cfg.source16MHz .any

end Sys2Proof.Machine
end

