-- ==== Sys2Proof/Machine/Ops.lean ====
section
/-! DEFINITION. The named operations over the registers and the response port, and the one run-time fault (spec
10_state.md, 30_encoding.md R43, R44, 60_exceptions.md R111). Every write goes through one of them. -/

namespace Sys2Proof.Machine

/-- Write the three data registers together (R24, R66 step 4): only TICK does (R13). -/
def State.setCounters (s : State) (ms : Word) (fr : Byte) (ovf : Word) : State :=
  { s with ms := ms, fr := fr, ovf := ovf }

/-- Write `CNT` (R14). -/
def State.setCnt (s : State) (c : Byte) : State := { s with cnt := c }

/-- Write `UIF` (R15). -/
def State.setUif (s : State) (b : Bool) : State := { s with uif := b }

/-- Write `CEN` (R16). -/
def State.setCen (s : State) (b : Bool) : State := { s with cen := b }

/-- Write `UIE` (R17). -/
def State.setUie (s : State) (b : Bool) : State := { s with uie := b }

/-- Write `GIE` (R18). -/
def State.setGie (s : State) (b : Bool) : State := { s with gie := b }

/-- Drive the response port (R44). -/
def State.setResp (s : State) (r : Option Response) : State := { s with resp := r }

/-- Replace what the agents issue next. -/
def State.setSchedule (s : State) (es : List Event) : State := { s with schedule := es }

/-- A defined host operation ends: it answers `(v, 0)` (R44, R43 last sentence). -/
def answer (v : Word) (s : State) : Host.Outcome State Fault Refusal :=
  .next (s.setResp (some { rdata := v, rerr := false }))

/-- An event operation ends: it produces no response (R44). -/
def silent (s : State) : Host.Outcome State Fault Refusal :=
  .next (s.setResp none)

/-- The fault `IllegalOp` (R43, R111), the block's only exception: no register changes, `RDATA = 0`, `RERR = 1`, the
code is not latched, no handler is invoked and the next operation is accepted normally. Taking it and returning from it
are this one transition. -/
def raiseIllegalOp (s : State) : Host.Outcome State Fault Refusal :=
  .next (s.setResp (some { rdata := 0, rerr := true }))

/-- Elaboration followed by reset (R60, R130, R131): the reset state of the block built for a clock, or the reason no
block exists. -/
def elaborate (fCpu : Nat) (l : HandlerLatency) : Except ConfigError State :=
  match calculate fCpu with
  | .ok c => .ok (State.resetWith c l)
  | .error e => .error e

end Sys2Proof.Machine
end

