-- ==== Sys2Proof/Machine/Operands.lean ====
section
/-! DEFINITION. What the operations read: no operation has an operand (spec 30_encoding.md R45), so the operand forms of
this block are the indexed names of the data registers (00_scope.md R6), the snapshot of MICROS (42_clock_reader.md R77),
and the comparison law for two values a client has read (00_scope.md R8). -/

namespace Sys2Proof.Machine

/-- The data registers under their index aliases (R6): `x[0]` is `MS`, `x[1]` is `OVF`, `x[2]` is `FR`, zero-extended
here. No operation carries an index; the form exists for uniformity. -/
def State.indexed (s : State) (i : Fin 3) : Word :=
  match i with
  | 0 => s.ms
  | 1 => s.ovf
  | 2 => s.fr.zeroExtend 32

/-- The values MICROS takes at one instant (R77). -/
structure Snapshot where
  /-- `m`, from `OVF`. -/
  overflows : Word
  /-- `t`, from `CNT`. -/
  ticks : Byte
  /-- `u`, from `UIF`; reading it does not clear it (R34). -/
  pending : Bool
  deriving DecidableEq, Repr

/-- The snapshot of R77. -/
def snapshot (s : State) : Snapshot :=
  { overflows := s.ovf, ticks := s.cnt, pending := s.uif }

/-- The elapsed amount between an earlier value `a` and a later value `b` of one counter (R8): the difference in the
same width. -/
def elapsed (n : Nat) (a b : BitVec n) : BitVec n := b - a

end Sys2Proof.Machine
end

