-- ==== Sys2Proof/Machine/Flags.lean ====
section
/-! DEFINITION. The conditions and flag computations: the guards of TICK and CNT (spec 60_exceptions.md R114,
44_timer_events.md R95), the wrap of the counter (R96), the compensation test of MICROS (R78) and the carry of the
fractional remainder (R66 step 3). -/

namespace Sys2Proof.Machine

/-- The dispatch condition of TICK (R65, R114). -/
def State.tickEnabled (s : State) : Bool := s.uif && s.uie && s.gie

/-- The guard of CNT (R95). -/
def State.cntEnabled (s : State) : Bool := s.cen

/-- `CNT = PERIOD - 1`: the next tick completes the period (R96). -/
def State.atPeriodEnd (s : State) : Bool := s.cnt.toNat == s.cfg.period - 1

/-- A CNT here would be a missed overflow: a wrap while `UIF` is 1 already (R97). -/
def State.wouldMissOverflow (s : State) : Bool := s.uif && s.atPeriodEnd

/-- The pending-overflow test of R78: `u = 1` and `t < PERIOD - 1`, strictly. -/
def compensates (period : Nat) (x : Snapshot) : Bool :=
  x.pending && decide (x.ticks.toNat < period - 1)

/-- Step 3 of TICK (R66) on the exact sum, over the naturals (R7 (b)): the new remainder and whether it carries. -/
def accumulateFraction (c : Cfg) (fr : Nat) : Nat × Bool :=
  if c.fractInc = 0 then (fr, false)
  else if c.fractMax ≤ fr + c.fractInc then (fr + c.fractInc - c.fractMax, true)
  else (fr + c.fractInc, false)

end Sys2Proof.Machine
end

