-- ==== Sys2Proof/Machine/Clock.lean ====
section
/-! DEFINITION. The clock reader MILLIS and MICROS (spec 42_clock_reader.md R75 to R84). Neither changes a register
(R83). -/

namespace Sys2Proof.Machine

/-- The local overflow count of MICROS after compensation (R78); the increment wraps and `OVF` is not written. -/
def compensated (period : Nat) (x : Snapshot) : Word :=
  if compensates period x then x.overflows + 1 else x.overflows

/-- The conversion to microseconds (R79): every product and sum modulo `2^32`. -/
def toMicros (c : Cfg) (m : Word) (t : Byte) : Word :=
  (m * BitVec.ofNat 32 c.period + t.zeroExtend 32) * BitVec.ofNat 32 c.usPerTick

/-- The value MICROS returns in a state: snapshot (R77), compensation (R78), conversion (R79). -/
def microsValue (s : State) : Word :=
  toMicros s.cfg (compensated s.cfg.period (snapshot s)) (snapshot s).ticks

/-- MILLIS (R75, R76): the whole of `MS`; a pending overflow is not counted in. -/
def execMillis (s : State) : Host.Outcome State Fault Refusal := answer s.ms s

/-- MICROS (R77 to R79). -/
def execMicros (s : State) : Host.Outcome State Fault Refusal := answer (microsValue s) s

end Sys2Proof.Machine
end

