-- ==== Sys2Proof/Machine/Control.lean ====
section
/-! DEFINITION. The control operations NOP, TSTART, TSTOP, IDIS and IEN (spec 43_control_ops.md R85 to R91). None has a
guard and none faults (R91). -/

namespace Sys2Proof.Machine

/-- NOP (R85). -/
def execNop (s : State) : Host.Outcome State Fault Refusal := answer 0 s

/-- TSTART (R86): the divisor and the period are constants of `Cfg`; `CNT` and `UIF` are not cleared. -/
def execTstart (s : State) : Host.Outcome State Fault Refusal :=
  answer 0 ((s.setCen true).setUie true)

/-- TSTOP (R87): `UIE` stays as it is. -/
def execTstop (s : State) : Host.Outcome State Fault Refusal :=
  answer 0 (s.setCen false)

/-- IDIS (R88): interrupt delivery is suspended; the timer goes on. -/
def execIdis (s : State) : Host.Outcome State Fault Refusal :=
  answer 0 (s.setGie false)

/-- IEN (R89): one flat bit, no nesting depth (R90). -/
def execIen (s : State) : Host.Outcome State Fault Refusal :=
  answer 0 (s.setGie true)

end Sys2Proof.Machine
end

