-- ==== Sys2Proof/Machine/Handler.lean ====
section
/-! DEFINITION. The tick accumulator and overflow handler TICK (spec 41_tick_accumulator.md R65 to R72). Entry saves
nothing, changes no mode and goes to no address, and return is the end of the operation (60_exceptions.md R118, R119), so
taking the update interrupt and returning from it are this one transition. -/

namespace Sys2Proof.Machine

/-- The millisecond counter after steps 2 and 3 of TICK (R66): two additions modulo `2^32`, each wrapping on its own
(R71 (b)). -/
def advanceMillis (c : Cfg) (ms : Word) (carry : Bool) : Word :=
  if carry then ms + BitVec.ofNat 32 c.millisInc + 1 else ms + BitVec.ofNat 32 c.millisInc

/-- The five steps of TICK as one transition (R66, R70): new counters, then `UIF` cleared. -/
def serviceOverflow (s : State) : State :=
  let (f, carry) := accumulateFraction s.cfg s.fr.toNat
  (s.setCounters (advanceMillis s.cfg s.ms carry) (BitVec.ofNat 8 f) (s.ovf + 1)).setUif false

/-- TICK (R65, R66). When its guard is false it has no step (R42). -/
def execTick (s : State) : Host.Outcome State Fault Refusal :=
  if s.tickEnabled then silent (serviceOverflow s) else .refused .tickNotEnabled

end Sys2Proof.Machine
end

