-- ==== Sys2Proof/Machine/Timer.lean ====
section
/-! DEFINITION. The timer tick event CNT of the reference timer (spec 44_timer_events.md R95 to R99). -/

namespace Sys2Proof.Machine

/-- One tick of the reference timer (R96): at the end of the period the counter returns to 0 and `UIF` is set in the same
transition; a flag already set stays set and nothing records the second event (R97). -/
def countTick (s : State) : State :=
  if s.atPeriodEnd then (s.setCnt 0).setUif true else s.setCnt (s.cnt + 1)

/-- CNT (R95, R96). When `CEN = 0` it has no step (R42). -/
def execCnt (s : State) : Host.Outcome State Fault Refusal :=
  if s.cntEnabled then silent (countTick s) else .refused .counterStopped

end Sys2Proof.Machine
end

