-- ==== Sys2Proof/Machine/Dispatch.lean ====
section
/-! DEFINITION. The dispatch of an operation to its meaning: one arm per constructor of Instr (spec 30_encoding.md R41). -/

namespace Sys2Proof.Machine

/-- The meaning of an operation in a state. -/
def exec (i : Instr) (s : State) : Host.Outcome State Fault Refusal :=
  match i with
  | .nop => Sys2Proof.Machine.execNop s
  | .millis => Sys2Proof.Machine.execMillis s
  | .micros => Sys2Proof.Machine.execMicros s
  | .tstart => Sys2Proof.Machine.execTstart s
  | .tstop => Sys2Proof.Machine.execTstop s
  | .idis => Sys2Proof.Machine.execIdis s
  | .ien => Sys2Proof.Machine.execIen s
  | .tick => Sys2Proof.Machine.execTick s
  | .cnt => Sys2Proof.Machine.execCnt s

end Sys2Proof.Machine
end

