-- ==== Sys2Proof/WellFormed.lean ====
section
/-! DEFINITION. Well-formedness: the constraints on a configuration record (spec 10_state.md R22) and the codes each
agent issues (spec 30_encoding.md R41, R42). An `Instr` has no operand (R45), so every term of it is well-formed. -/

namespace Sys2Proof

/-- Constraints (a) to (f) of R22. A record that violates them is not a configuration (93_implementation_defined.md
U20). -/
abbrev Cfg.Valid (c : Cfg) : Prop :=
  (c.divisor ∈ divSet ∧ c.divisor = 2 ^ c.pscSel ∧ c.pscSel ≤ 7) ∧
  (1 ≤ c.period ∧ c.period ≤ 255) ∧
  (1 ≤ c.fractMax ∧ c.fractMax ≤ 256) ∧
  c.fractInc < c.fractMax ∧
  c.millisInc < 2 ^ 32 ∧
  c.usPerTick < 2 ^ 32

/-- The codes an agent may issue: for the host the seven host codes of R41, for the timer and the handler their own
code alone (R42). -/
def Source.codes : Source → List OpCode
  | .host => [0x0#4, 0x1#4, 0x2#4, 0x4#4, 0x5#4, 0x6#4, 0x7#4]
  | .timer => [0x9#4]
  | .handler => [0x8#4]

/-- A schedule element is well-formed when the code is one its agent may issue (R41, R42). From the host an ill-formed
code is illegal and answered so (R43); from the other two agents it never occurs. -/
abbrev Event.WellFormed (e : Event) : Prop := e.code ∈ e.source.codes

end Sys2Proof
end

