-- ==== Sys2Proof/Machine/Issue.lean ====
section
/-! DEFINITION. How an operation comes to be executed: which agent presents what (spec 20_memory.md R36), the latency of
the handler (60_exceptions.md R115), decoding and the illegal codes (30_encoding.md R42, R43), and runs of a schedule
with the responses the host gets back (70_reset_and_hazards.md R146). -/

namespace Sys2Proof.Machine

/-- The event may be the next one (R115): under `immediate` an enabled TICK comes before anything else. -/
def admits (e : Event) (s : State) : Bool :=
  match s.latency with
  | .any => true
  | .immediate => !s.tickEnabled || decide (e = tickEvent)

/-- What a presented code does once it may come next: a defined operation has its meaning (R42), an undefined host code
raises `IllegalOp` (R43, R111), a code the timer or the handler never issues does not occur (R42). -/
def perform (e : Event) (s : State) : Host.Outcome State Fault Refusal :=
  match decode e.source e.code with
  | .ok i => exec i s
  | .error (.illegalOp _) => raiseIllegalOp s
  | .error (.neverIssued source code) => .refused (.neverIssued source code)

/-- One operation of a run, presented by its agent. A record that violates R22 is no configuration (U20). -/
def issue (e : Event) (s : State) : Host.Outcome State Fault Refusal :=
  if s.cfg.Valid then
    if admits e s then perform e s else .refused .handlerFirst
  else .refused .notAConfiguration

/-- What is issued next and the state with the rest of the schedule: none when nothing is issued. -/
def fetch (s : State) : Option (Event × State) :=
  match s.schedule with
  | [] => none
  | e :: rest => some (e, s.setSchedule rest)

/-- The state in which the agent may issue its own operation: for the timer its guard `CEN` holds (with `UIE`, as TSTART
sets both, R86), for the handler the dispatch condition of R114 holds; the host needs nothing (R91). -/
def readyFor (source : Source) (s : State) : State :=
  match source with
  | .host => s
  | .timer => (s.setCen true).setUie true
  | .handler => ((s.setUif true).setUie true).setGie true

/-- Put an event at the head of the schedule, its agent ready to issue it (notes/assumptions/9.md). -/
def presentNext (e : Event) (s : State) : State :=
  (readyFor e.source s).setSchedule (e :: s.schedule)

/-- Perform the events in order, stopping at the first that is no step: a finite prefix of a run (R36, R146). -/
def runEvents : List Event → State → Host.Outcome State Fault Refusal
  | [], s => .next s
  | e :: es, s =>
    match issue e s with
    | .next t => runEvents es t
    | .fault r => .fault r
    | .refused r => .refused r

/-- The state an outcome goes on with, if any. -/
def nextOf (o : Host.Outcome State Fault Refusal) : Option State :=
  match o with
  | .next t => some t
  | .fault _ => none
  | .refused _ => none

/-- The responses the host gets back along a schedule, oldest first (R146). -/
def responses : List Event → State → List Response
  | [], _ => []
  | e :: es, s =>
    match issue e s with
    | .next t => t.resp.toList ++ responses es t
    | .fault _ => []
    | .refused _ => []

end Sys2Proof.Machine
end

