-- ==== Sys2Proof/Machine/Step.lean ====
section
/-! DEFINITION. One step of the machine: the operation that the schedule holds next is issued (spec 20_memory.md R36). -/

namespace Sys2Proof.Machine

/-- One step: the next operation of the schedule, as one atomic transition (R33). With nothing issued there is no
step (R26). -/
def step (s : State) : Host.Outcome State Fault Refusal :=
  match fetch s with
  | none => .refused .noOperation
  | some (e, t) => issue e t

/-- The state with a word of spec/opcode_table.json placed as the next operation of the schedule, its agent ready to
issue it (notes/assumptions/9.md). A word that is no 4-bit code places nothing. -/
def State.withFetchWord (s : State) (nbits w : Nat) : State :=
  match eventOfTableWord nbits w with
  | none => s
  | some e => presentNext e s

end Sys2Proof.Machine
end

