-- ==== Sys2Proof/Machine/Delay.lean ====
section
/-! DEFINITION. The delay primitives as clients of the block (spec 45_delay_clients.md R100 to R107). They are host
software, no part of the block (00_scope.md R3); `delay` is written here as a machine that consumes the values the
host's successive MICROS operations return. Nothing in `step` depends on this file. -/

namespace Sys2Proof.Machine

/-- What the source leaves open in `delay` (R101, 93_implementation_defined.md U10): after a yield, one decrement at
most, or as many as are due. -/
inductive PollForm where
  /-- The test after the yield is an `if`. -/
  | once
  /-- The test after the yield is an inner `while`. -/
  | drain
  deriving DecidableEq, Repr

/-- The host-side variables of `delay` (R101), with counts of the yields and of the MICROS operations issued. The width of
the milliseconds counter is not in the source: a natural number here (notes/assumptions/15.md). -/
structure Delay where
  /-- `ms`, the remaining-milliseconds counter. -/
  remaining : Nat
  /-- `start`, the 16-bit rolling start marker. -/
  start : Half
  /-- How often the yield hook has been invoked. -/
  yields : Nat
  /-- How many MICROS the host has issued. -/
  reads : Nat
  deriving DecidableEq, Repr

/-- The low 16 bits of a MICROS value (R101). -/
def lowHalf (now : Word) : Half := now.truncate 16

/-- Entry of `delay(ms)`: the first MICROS gives the start marker (R101, R104). -/
def Delay.enter (ms : Nat) (now : Word) : Delay :=
  { remaining := ms, start := lowHalf now, yields := 0, reads := 1 }

/-- The difference-based test (R101, R102): the unsigned 16-bit difference reaches or exceeds 1000. -/
def Delay.due (d : Delay) (now : Word) : Bool := decide (1000 ≤ (lowHalf now - d.start).toNat)

/-- One millisecond counted: the marker advances by exactly 1000, not to `now` (R102). -/
def Delay.countOne (d : Delay) : Delay :=
  { d with remaining := d.remaining - 1, start := d.start + 1000 }

/-- Invoke the yield hook (R103). -/
def Delay.yield (d : Delay) : Delay := { d with yields := d.yields + 1 }

/-- Issue one MICROS. -/
def Delay.read (d : Delay) : Delay := { d with reads := d.reads + 1 }

/-- The polling loop over the values that successive MICROS return (R101); `mustYield` says that the next poll comes
after a yield. It ends when the remaining count is zero, or with the values given, since the wait goes on (R107). -/
def Delay.poll (form : PollForm) : Bool → List Word → Delay → Delay
  | _, [], d => d
  | mustYield, now :: rest, d =>
    if d.remaining = 0 then d
    else
      let d := (if mustYield then d.yield else d).read
      if d.due now then Delay.poll form (decide (form = .once)) rest d.countOne
      else Delay.poll form true rest d

/-- `delay(ms)` on the values its MICROS operations return, the first being the start marker's (R101). -/
def delay (form : PollForm) (ms : Nat) (now : Word) (polls : List Word) : Delay :=
  Delay.poll form true polls (Delay.enter ms now)

/-- `delayMicroseconds` seen from the block (R106): a run of NOP operations of a length that the source does not fix. -/
def delayMicrosecondsEvents (n : Nat) : List Event := List.replicate n (Instr.event .nop)

end Sys2Proof.Machine
end

