-- ==== Sys2Proof/Machine/Trace.lean ====
section
/-! DEFINITION. Written traces: the pseudo-operations (spec 30_encoding.md R48) as schedules, and the textual form of
traces (R47) with its reader and printer. Nothing in `step` depends on this file. -/

namespace Sys2Proof.Machine

/-- `CNT*n` (R48). -/
def countEvents (n : Nat) : List Event := List.replicate n cntEvent

/-- `WRAP` from a counter value (R48): up to and including the CNT that wraps. -/
def wrapEvents (period cnt : Nat) : List Event := countEvents (period - cnt)

/-- `INIT` (R48): the two acts of the startup configurator on the block (R132). -/
def initEvents : List Event := [Instr.event .tstart, Instr.event .ien]

/-- `OVERFLOW` from a counter value (R48): one serviced overflow. -/
def overflowEvents (period cnt : Nat) : List Event := wrapEvents period cnt ++ [tickEvent]

/-- `OVERFLOW*n` (R48); every OVERFLOW ends with the counter at 0. -/
def overflowTimes (period : Nat) : Nat → Nat → List Event
  | _, 0 => []
  | cnt, n + 1 => overflowEvents period cnt ++ overflowTimes period 0 n

/-- `CRIT` around host operations (R48). -/
def criticalSection (ops : List Event) : List Event :=
  Instr.event .idis :: ops ++ [Instr.event .ien]

/-- The mnemonic of an operation, in capitals (R41, R47). -/
def mnemonic : Instr → List Char
  | .nop => ['N', 'O', 'P']
  | .millis => ['M', 'I', 'L', 'L', 'I', 'S']
  | .micros => ['M', 'I', 'C', 'R', 'O', 'S']
  | .tstart => ['T', 'S', 'T', 'A', 'R', 'T']
  | .tstop => ['T', 'S', 'T', 'O', 'P']
  | .idis => ['I', 'D', 'I', 'S']
  | .ien => ['I', 'E', 'N']
  | .tick => ['T', 'I', 'C', 'K']
  | .cnt => ['C', 'N', 'T']

/-- All operations, in the order of the map of R41. -/
def allInstrs : List Instr := [.nop, .millis, .micros, .tstart, .tstop, .idis, .ien, .tick, .cnt]

/-- The operation a mnemonic names. -/
def ofMnemonic (w : List Char) : Option Instr :=
  allInstrs.find? fun i => decide (mnemonic i = w)

/-- The operations that return a value (R41, R44). -/
def returnsValue : Instr → Bool
  | .millis => true
  | .micros => true
  | .nop => false
  | .tstart => false
  | .tstop => false
  | .idis => false
  | .ien => false
  | .tick => false
  | .cnt => false

/-- What a line of a trace is cut into. -/
inductive Token where
  /-- A run of letters, digits or other signs. -/
  | word (w : List Char)
  /-- The sign of repetition. -/
  | star
  /-- The brace that opens a critical section. -/
  | openBrace
  /-- The brace that closes it. -/
  | closeBrace
  /-- The end of a line, a semicolon, or the place of a brace: a statement ends. -/
  | stop
  deriving DecidableEq, Repr

/-- The word collected so far, if any, before the tokens that follow. The letters are collected last first. -/
def flushWord (acc : List Char) (ts : List Token) : List Token :=
  match acc with
  | [] => ts
  | _ :: _ => .word acc.reverse :: ts

/-- Cut a text into tokens (R47): a newline or a semicolon separates operations, `#` starts a comment to the end of the
line. `acc` is the word being collected, `comment` says that a comment is being skipped. -/
def lexTrace : List Char → List Char → Bool → List Token
  | [], acc, _ => flushWord acc [.stop]
  | c :: cs, acc, true =>
    if c = '\n' then .stop :: lexTrace cs [] false else lexTrace cs acc true
  | c :: cs, acc, false =>
    if c = '\n' ∨ c = ';' then flushWord acc (.stop :: lexTrace cs [] false)
    else if c = ' ' ∨ c = '\t' ∨ c = '\r' then flushWord acc (lexTrace cs [] false)
    else if c = '#' then flushWord acc (lexTrace cs [] true)
    else if c = '*' then flushWord acc (.star :: lexTrace cs [] false)
    else if c.toNat = 123 then flushWord acc (.openBrace :: .stop :: lexTrace cs [] false)
    else if c.toNat = 125 then flushWord acc (.stop :: .closeBrace :: .stop :: lexTrace cs [] false)
    else lexTrace cs (c :: acc) false

/-- One element of a written trace: an operation, with the value a MILLIS or MICROS is written to return, or a
pseudo-operation of R48. -/
inductive Item where
  /-- An operation by its mnemonic, and the value after the arrow. -/
  | op (i : Instr) (result : Option Nat)
  /-- `CNT*n`. -/
  | counts (n : Nat)
  /-- `WRAP`. -/
  | wrap
  /-- `INIT`. -/
  | init
  /-- `OVERFLOW*n`, with n = 1 for `OVERFLOW`. -/
  | overflows (n : Nat)
  /-- The opening of `CRIT`, which is IDIS. -/
  | critOpen
  /-- The closing of `CRIT`, which is IEN. -/
  | critClose
  deriving DecidableEq, Repr

/-- A decimal digit. -/
def digitValue (c : Char) : Option Nat :=
  if 48 ≤ c.toNat ∧ c.toNat ≤ 57 then some (c.toNat - 48) else none

/-- Read a decimal number, given the value of the digits before. -/
def readDigits : List Char → Nat → Option Nat
  | [], n => some n
  | c :: cs, n =>
    match digitValue c with
    | some d => readDigits cs (10 * n + d)
    | none => none

/-- Read a decimal number of at least one digit. -/
def readNumber (w : List Char) : Option Nat :=
  match w with
  | [] => none
  | _ :: _ => readDigits w 0

/-- A statement of one word: an operation or a pseudo-operation without a count. -/
def readWord (w : List Char) : Option Item :=
  if w = ['W', 'R', 'A', 'P'] then some .wrap
  else if w = ['I', 'N', 'I', 'T'] then some .init
  else if w = ['O', 'V', 'E', 'R', 'F', 'L', 'O', 'W'] then some (.overflows 1)
  else (ofMnemonic w).map fun i => .op i none

/-- A statement with a count: `CNT*n` or `OVERFLOW*n`. -/
def readRepeated (w : List Char) (n : Nat) : Option Item :=
  if w = ['C', 'N', 'T'] then some (.counts n)
  else if w = ['O', 'V', 'E', 'R', 'F', 'L', 'O', 'W'] then some (.overflows n)
  else none

/-- A statement with a value after the arrow: MILLIS or MICROS. -/
def readResult (w : List Char) (n : Nat) : Option Item :=
  match ofMnemonic w with
  | some i => if returnsValue i then some (.op i (some n)) else none
  | none => none

/-- One statement: the tokens between two stops. An empty statement holds nothing. -/
def readStatement : List Token → Option (List Item)
  | [] => some []
  | [.closeBrace] => some [.critClose]
  | [.word w] => (readWord w).map fun x => [x]
  | [.word w, .openBrace] => if w = ['C', 'R', 'I', 'T'] then some [.critOpen] else none
  | [.word w, .star, .word v] =>
    (readNumber v).bind fun n => (readRepeated w n).map fun x => [x]
  | [.word w, .word arrow, .word v] =>
    if arrow = ['-', '>'] then (readNumber v).bind fun n => (readResult w n).map fun x => [x] else none
  | _ => none

/-- Read the statements of a token list; `acc` holds the tokens of the statement being collected, last first. -/
def readTokens : List Token → List Token → Option (List Item)
  | [], acc => readStatement acc.reverse
  | .stop :: ts, acc =>
    match readStatement acc.reverse with
    | none => none
    | some xs => (readTokens ts []).map fun ys => xs ++ ys
  | t :: ts, acc => readTokens ts (t :: acc)

/-- Every critical section that is opened is closed, and none is closed that is not open. -/
def sectionsClose : List Item → Nat → Bool
  | [], depth => depth == 0
  | .critOpen :: xs, depth => sectionsClose xs (depth + 1)
  | .critClose :: xs, depth => depth != 0 && sectionsClose xs (depth - 1)
  | _ :: xs, depth => sectionsClose xs depth

/-- Read a written trace (R47, R48). -/
def readTrace (text : List Char) : Option (List Item) :=
  match readTokens (lexTrace text [] false) [] with
  | none => none
  | some xs => if sectionsClose xs 0 then some xs else none

/-- Write operations as a trace, one on a line (R47). -/
def writeOps : List Instr → List Char
  | [] => []
  | i :: is => mnemonic i ++ '\n' :: writeOps is

/-- An event with nothing written about its result. -/
def unchecked (es : List Event) : List (Event × Option Nat) := es.map fun e => (e, none)

/-- The counter value after `n` ticks of a period. -/
def countAfter (period cnt n : Nat) : Nat := if period = 0 then 0 else (cnt + n) % period

/-- The schedule a written trace stands for, each operation with the value written for it, from a counter value: WRAP and
OVERFLOW depend on where the counter stands (R48). -/
def expandTrace (period : Nat) : Nat → List Item → List (Event × Option Nat)
  | _, [] => []
  | cnt, .op i r :: xs =>
    (i.event, r) :: expandTrace period (if i = .cnt then countAfter period cnt 1 else cnt) xs
  | cnt, .counts n :: xs => unchecked (countEvents n) ++ expandTrace period (countAfter period cnt n) xs
  | cnt, .wrap :: xs => unchecked (wrapEvents period cnt) ++ expandTrace period 0 xs
  | cnt, .init :: xs => unchecked initEvents ++ expandTrace period cnt xs
  | cnt, .overflows n :: xs =>
    unchecked (overflowTimes period cnt n) ++ expandTrace period (if n = 0 then cnt else 0) xs
  | cnt, .critOpen :: xs => unchecked [Instr.event .idis] ++ expandTrace period cnt xs
  | cnt, .critClose :: xs => unchecked [Instr.event .ien] ++ expandTrace period cnt xs

/-- The response is the written value, where one is written. -/
def meetsWritten (want : Option Nat) (got : Option Response) : Bool :=
  match want with
  | none => true
  | some n =>
    match got with
    | none => false
    | some r => !r.rerr && r.rdata.toNat == n

/-- Perform a schedule and compare every written value with the response: the end state if all agree. -/
def runChecked : List (Event × Option Nat) → State → Option State
  | [], s => some s
  | (e, want) :: xs, s =>
    match nextOf (issue e s) with
    | none => none
    | some t => if meetsWritten want t.resp then runChecked xs t else none

/-- Perform a written trace in a state. -/
def runTrace (text : List Char) (s : State) : Option State :=
  match readTrace text with
  | none => none
  | some xs => runChecked (expandTrace s.cfg.period s.cnt.toNat xs) s

end Sys2Proof.Machine
end

