-- ==== Sys2Proof/Safety.lean ====
section
/-! DEFINITION. What counts as a good state and a good run, in the terms the statements use: the state invariants (spec
10_state.md R23), missed overflows (44_timer_events.md R97), the third row of R80, and fairness over unending runs
(60_exceptions.md R115, 44_timer_events.md R95). -/

namespace Sys2Proof.Machine

/-- The state invariants of R23, with a configuration that meets R22: (I1) `FR < FRACT_MAX`, (I2) `CNT <= PERIOD - 1`,
(I5) `UIE = 0` implies that nothing has counted and the timer is off. (I3) and (I4) are the types of the fields. -/
abbrev State.Inv (s : State) : Prop :=
  s.cfg.Valid ∧
  s.fr.toNat < s.cfg.fractMax ∧
  s.cnt.toNat ≤ s.cfg.period - 1 ∧
  (s.uie = false → s.ms = 0 ∧ s.fr = 0 ∧ s.ovf = 0 ∧ s.cnt = 0 ∧ s.uif = false ∧ s.cen = false)

/-- The third row of R80: an overflow is pending and MICROS does not count it in (R135). -/
def State.atBoundary (s : State) : Bool := s.uif && s.atPeriodEnd

/-- How many TICK operations a schedule holds. -/
def tickCount (es : List Event) : Nat := es.count tickEvent

/-- How many CNT operations a schedule holds. -/
def cntCount (es : List Event) : Nat := es.count cntEvent

/-- How many overflow events a run misses (R97): a wrapping CNT while `UIF` is 1. A ghost count of the run, which no
operation reads (R25). -/
def missedCount : List Event → State → Nat
  | [], _ => 0
  | e :: es, s =>
    match issue e s with
    | .next t => (if e = cntEvent ∧ s.wouldMissOverflow = true then 1 else 0) + missedCount es t
    | .fault _ => 0
    | .refused _ => 0

/-- How many overflow events a run has: a CNT at the end of the period, which wraps and sets `UIF` (R96). A ghost count of
the run, which no operation reads. -/
def wrapCount : List Event → State → Nat
  | [], _ => 0
  | e :: es, s =>
    match issue e s with
    | .next t => (if e = cntEvent ∧ s.atPeriodEnd = true then 1 else 0) + wrapCount es t
    | .fault _ => 0
    | .refused _ => 0

/-- A run that keeps time: it is a run, misses no overflow, and ends outside the third row of R80. -/
def KeepsTime (es : List Event) (s t : State) : Prop :=
  runEvents es s = .next t ∧ missedCount es s = 0 ∧ t.atBoundary = false

/-- An unending run (R146): the states and the events of an infinite sequence of operations. -/
def UnendingRun (states : Nat → State) (events : Nat → Event) : Prop :=
  ∀ n, issue (events n) (states n) = .next (states (n + 1))

/-- Weak fairness of TICK (R115 (a)): enabled from some point on without interruption, it occurs after that point. -/
def TickFair (states : Nat → State) (events : Nat → Event) : Prop :=
  ∀ n, (∀ m, n ≤ m → (states m).tickEnabled = true) → ∃ m, n ≤ m ∧ events m = tickEvent

/-- Weak fairness of CNT (R95, R144): enabled from some point on without interruption, it occurs after that point. -/
def CntFair (states : Nat → State) (events : Nat → Event) : Prop :=
  ∀ n, (∀ m, n ≤ m → (states m).cntEnabled = true) → ∃ m, n ≤ m ∧ events m = cntEvent

end Sys2Proof.Machine
end

