-- ==== Sys2Proof/Certificates/Slice0/Obligations.lean ====
section
/-! DEFINITION. The statements for the provers, one definition each. Each docstring names the rule of spec/ it
formalises; a rule that the spec marks as derived is named as the spec's own inference. -/

open Sys2Proof Sys2Proof.Machine

/-! ### Encoding -/

/-- R41, R42: an agent's code decodes to an operation exactly when the map gives that operation to that agent under that
code, and from the host exactly the nine codes of R43 are illegal. In particular decode of encode is the operation. -/
def Obligations.DecodeIsTheOperationMap : Prop :=
  (∀ i : Instr, decode i.issuer (encode i) = .ok i) ∧
  (∀ (source : Source) (code : OpCode) (i : Instr),
    decode source code = .ok i → source = i.issuer ∧ code = encode i) ∧
  (∀ code : OpCode, decode .host code = .error (.illegalOp code) ↔
    code ∈ [0x3#4, 0x8#4, 0x9#4, 0xA#4, 0xB#4, 0xC#4, 0xD#4, 0xE#4, 0xF#4])

/-- The words of R41, written out: the decoder reads from each the operation of its row, and nothing from the seven
reserved words. That a bare 0x8 is read as the handler's and a bare 0x9 as the timer's is the model's reading of a table
word (notes/assumptions/10.md). -/
def Obligations.WrittenWordsDecode : Prop :=
  decodeTableWord 8 0b0000 = some .nop ∧ decodeTableWord 8 0b0001 = some .millis ∧
  decodeTableWord 8 0b0010 = some .micros ∧ decodeTableWord 8 0b0100 = some .tstart ∧
  decodeTableWord 8 0b0101 = some .tstop ∧ decodeTableWord 8 0b0110 = some .idis ∧
  decodeTableWord 8 0b0111 = some .ien ∧ decodeTableWord 8 0b1000 = some .tick ∧
  decodeTableWord 8 0b1001 = some .cnt ∧
  decodeTableWord 8 0b0011 = none ∧ decodeTableWord 8 0b1010 = none ∧ decodeTableWord 8 0b1011 = none ∧
  decodeTableWord 8 0b1100 = none ∧ decodeTableWord 8 0b1101 = none ∧ decodeTableWord 8 0b1110 = none ∧
  decodeTableWord 8 0b1111 = none

/-- R43: an illegal host code answers `RDATA = 0`, `RERR = 1` and changes no register; every other host code is the code
of one operation, which completes and answers `RERR = 0`. The code comes next in the run when the latency admits it
(R115). -/
def Obligations.HostPortAnswersEveryCode : Prop :=
  ∀ (s : State) (code : OpCode), s.cfg.Valid → admits { source := .host, code := code } s = true →
    (code ∈ [0x3#4, 0x8#4, 0x9#4, 0xA#4, 0xB#4, 0xC#4, 0xD#4, 0xE#4, 0xF#4] →
      issue { source := .host, code := code } s = .next { s with resp := some { rdata := 0, rerr := true } }) ∧
    (code ∉ [0x3#4, 0x8#4, 0x9#4, 0xA#4, 0xB#4, 0xC#4, 0xD#4, 0xE#4, 0xF#4] →
      ∃ (i : Instr) (v : Word) (t : State),
        decode .host code = .ok i ∧ encode i = code ∧
        issue { source := .host, code := code } s = .next t ∧ exec i s = .next t ∧
        t.resp = some { rdata := v, rerr := false })

/-- R47: operations written one on a line read back as those operations, for every list of operations. That blanks,
comments and semicolons are read besides is in the reader alone (notes/assumptions/18.md). -/
def Obligations.TraceTextRoundTrip : Prop :=
  ∀ ops : List Instr, readTrace (writeOps ops) = some (ops.map fun i => .op i none)

/-! ### Control operations -/

/-- R85: NOP has the code 0x0 and answers `(0, 0)`; no register is read or written, in any state. -/
def Obligations.NopChangesNothing : Prop :=
  encode .nop = 0x0#4 ∧
  ∀ s : State, exec .nop s = .next { s with resp := some { rdata := 0, rerr := false } }

/-- R86: TSTART has the code 0x4, sets `CEN` and `UIE` and nothing else, in any state; after it a second TSTART changes
nothing; from reset it gives `CEN = UIE = 1` and all else 0. -/
def Obligations.TstartStartsTheTimer : Prop :=
  encode .tstart = 0x4#4 ∧
  (∀ s : State, exec .tstart s =
    .next { s with cen := true, uie := true, resp := some { rdata := 0, rerr := false } }) ∧
  (∀ s t : State, exec .tstart s = .next t → exec .tstart t = .next t) ∧
  (∀ (c : Cfg) (l : HandlerLatency), exec .tstart (State.resetWith c l) =
    .next { State.resetWith c l with cen := true, uie := true, resp := some { rdata := 0, rerr := false } })

/-- R87: TSTOP has the code 0x5, clears `CEN` and nothing else, in any state. -/
def Obligations.TstopStopsTheTimer : Prop :=
  encode .tstop = 0x5#4 ∧
  ∀ s : State, exec .tstop s = .next { s with cen := false, resp := some { rdata := 0, rerr := false } }

/-- R87: while the timer is stopped and the host issues no TSTART, no CNT occurs, `CNT` keeps its value, and MICROS returns
the same value. The last clause is stated off the third row of R80 only: there R66 and R78 make the TICK of a pending
overflow change it (notes/assumptions/14.md). -/
def Obligations.StoppedTimerHoldsTheClock : Prop :=
  ∀ (es : List Event) (s t : State), s.cen = false → s.cnt.toNat ≤ s.cfg.period - 1 →
    Instr.event .tstart ∉ es → runEvents es s = .next t →
    cntEvent ∉ es ∧ t.cen = false ∧ t.cnt = s.cnt ∧
    (s.atBoundary = false → microsValue t = microsValue s)

/-- R88: IDIS has the code 0x6 and clears `GIE` and nothing else, in any state; from there until the next IEN no TICK
occurs and `MS`, `FR`, `OVF` are constant; the timer is not stopped, and a CNT that wraps sets `UIF`. -/
def Obligations.IdisSuspendsDelivery : Prop :=
  encode .idis = 0x6#4 ∧
  (∀ s : State, exec .idis s = .next { s with gie := false, resp := some { rdata := 0, rerr := false } }) ∧
  (∀ (es : List Event) (s t : State), s.gie = false → Instr.event .ien ∉ es → runEvents es s = .next t →
    tickEvent ∉ es ∧ t.ms = s.ms ∧ t.fr = s.fr ∧ t.ovf = s.ovf ∧ t.gie = false) ∧
  (∀ s : State, s.gie = false → s.cen = true →
    ∃ t, exec .cnt s = .next t ∧ t.gie = false ∧ (s.cnt.toNat = s.cfg.period - 1 → t.uif = true))

/-- R89: IEN has the code 0x7 and sets `GIE` and nothing else, in any state; with `UIF = 1` and `UIE = 1` it enables TICK;
TSTART then IEN from reset give `CEN = UIE = GIE = 1`. -/
def Obligations.IenRestoresDelivery : Prop :=
  encode .ien = 0x7#4 ∧
  (∀ s : State, exec .ien s = .next { s with gie := true, resp := some { rdata := 0, rerr := false } }) ∧
  (∀ s t : State, s.uif = true → s.uie = true → exec .ien s = .next t → ∃ u, exec .tick t = .next u) ∧
  (∀ (c : Cfg) (l : HandlerLatency) (t : State), exec .tstart (State.resetWith c l) = .next t →
    exec .ien t = .next { State.resetWith c l with
      cen := true, uie := true, gie := true, resp := some { rdata := 0, rerr := false } })

/-- R90: critical sections do not nest: after any number of IDIS, one IEN leaves interrupts enabled, and nothing but
`GIE` has changed. -/
def Obligations.CriticalSectionsDoNotNest : Prop :=
  ∀ (n : Nat) (s : State), s.cfg.Valid → s.latency = .any →
    runEvents (List.replicate n (Instr.event .idis) ++ [Instr.event .ien]) s =
      .next { s with gie := true, resp := some { rdata := 0, rerr := false } }

/-- R91: every host operation completes in every state and answers `RERR = 0`; on the reset state MILLIS and MICROS
return 0. -/
def Obligations.HostOperationsAreTotal : Prop :=
  (∀ (i : Instr) (s : State), i.issuer = .host →
    ∃ (t : State) (v : Word), exec i s = .next t ∧ t.resp = some { rdata := v, rerr := false }) ∧
  (∀ (c : Cfg) (l : HandlerLatency),
    exec .millis (State.resetWith c l) =
      .next { State.resetWith c l with resp := some { rdata := 0, rerr := false } } ∧
    exec .micros (State.resetWith c l) =
      .next { State.resetWith c l with resp := some { rdata := 0, rerr := false } })

/-! ### The clock reader -/

/-- R75: MILLIS has the code 0x1 and returns `MS` whole, changing no register, in any state. -/
def Obligations.MillisReturnsTheAccumulator : Prop :=
  encode .millis = 0x1#4 ∧
  ∀ s : State, exec .millis s = .next { s with resp := some { rdata := s.ms, rerr := false } }

/-- R76: the value MILLIS returns is that of the last processed overflow: over any run with no TICK in it `MS` is constant,
and so two MILLIS with no TICK between them return the same value, whatever is pending and however far the timer counts. -/
def Obligations.MillisIsConstantBetweenTicks : Prop :=
  ∀ (es : List Event) (s t u : State) (v : Word), tickEvent ∉ es → exec .millis s = .next t → runEvents es t = .next u →
    t.resp = some { rdata := v, rerr := false } →
    exec .millis u = .next { u with resp := some { rdata := v, rerr := false } } ∧
    u.ms = s.ms ∧ u.fr = s.fr ∧ u.ovf = s.ovf

/-- R77, R78, R79: MICROS has the code 0x2, takes `OVF`, `CNT` and `UIF` of one state, adds one to the local count exactly
when `UIF = 1` and `CNT < PERIOD - 1`, converts with every product and sum modulo `2^32`, and changes no register, in any
state. The value is the one the other statements call `microsValue`. -/
def Obligations.MicrosSnapshotAndConversion : Prop :=
  encode .micros = 0x2#4 ∧
  ∀ s : State,
    let m : Word := if s.uif = true ∧ s.cnt.toNat < s.cfg.period - 1 then s.ovf + 1 else s.ovf
    exec .micros s = .next { s with resp := some { rdata := microsValue s, rerr := false } } ∧
    microsValue s =
      (m * BitVec.ofNat 32 s.cfg.period + s.cnt.zeroExtend 32) * BitVec.ofNat 32 s.cfg.usPerTick

/-- The reading of the conversion that R79 marks as the spec's own inference: the value MICROS returns is the conversion over
the naturals, of the local count after the compensation, reduced once modulo `2^32`. -/
def Obligations.MicrosReducesOnce : Prop :=
  ∀ s : State,
    let m : Word := if s.uif = true ∧ s.cnt.toNat < s.cfg.period - 1 then s.ovf + 1 else s.ovf
    let v : Word := BitVec.ofNat 32 ((m.toNat * s.cfg.period + s.cnt.toNat) * s.cfg.usPerTick)
    exec .micros s = .next { s with resp := some { rdata := v, rerr := false } } ∧ microsValue s = v

/-- The table of R80 (the spec's own inference from R77 to R79), over the naturals and reduced once: no overflow pending;
one pending and counted in; one pending at `CNT = PERIOD - 1` and not counted in. With `PERIOD = 1` none is ever counted
in, with `PERIOD = 2` only at `CNT = 0`. -/
def Obligations.MicrosByCaseOfTheSnapshot : Prop :=
  ∀ s : State, s.cfg.Valid → s.cnt.toNat ≤ s.cfg.period - 1 →
    let e := s.ovf.toNat * s.cfg.period + s.cnt.toNat
    (s.uif = false → microsValue s = BitVec.ofNat 32 (e * s.cfg.usPerTick)) ∧
    (s.uif = true → s.cnt.toNat + 2 ≤ s.cfg.period →
      microsValue s = BitVec.ofNat 32 ((e + s.cfg.period) * s.cfg.usPerTick)) ∧
    (s.uif = true → s.cnt.toNat = s.cfg.period - 1 → microsValue s = BitVec.ofNat 32 (e * s.cfg.usPerTick)) ∧
    (s.cfg.period = 1 → microsValue s = BitVec.ofNat 32 (e * s.cfg.usPerTick)) ∧
    (s.cfg.period = 2 → s.uif = true → s.cnt.toNat ≠ 0 → microsValue s = BitVec.ofNat 32 (e * s.cfg.usPerTick))

/-- R81 (the spec's own inference): the value is continuous in `OVF`, at its wrap too, and the compensated value is that
of one overflow more, at the wrap too. -/
def Obligations.MicrosContinuousAcrossTheWrap : Prop :=
  ∀ s : State,
    (s.uif = false → microsValue { s with ovf := s.ovf + 1 } =
      microsValue s + BitVec.ofNat 32 (s.cfg.period * s.cfg.usPerTick)) ∧
    (s.uif = false → s.cnt.toNat < s.cfg.period - 1 →
      microsValue { s with uif := true } = microsValue { s with ovf := s.ovf + 1 })

/-- R82 (the spec's own inference): TICK never changes the value MICROS returns when `CNT < PERIOD - 1`. -/
def Obligations.TickKeepsMicros : Prop :=
  ∀ s t : State, s.cnt.toNat < s.cfg.period - 1 → exec .tick s = .next t → microsValue t = microsValue s

/-- R82 with R97 and R136 (the spec's own inferences): over any run between two states off the third row of R80, MICROS
advances by `US_PER_TICK` for each CNT, less `PERIOD * US_PER_TICK` for each missed overflow, modulo `2^32`. -/
def Obligations.MicrosAdvancesByTicksLessMissed : Prop :=
  ∀ (es : List Event) (s t : State), s.cfg.Valid → s.cnt.toNat ≤ s.cfg.period - 1 →
    s.atBoundary = false → runEvents es s = .next t → t.atBoundary = false →
    microsValue t + BitVec.ofNat 32 (s.cfg.period * s.cfg.usPerTick * missedCount es s) =
      microsValue s + BitVec.ofNat 32 (s.cfg.usPerTick * cntCount es)

/-- R82, premise `no missed overflow`: a run that keeps time moves MICROS by exactly `US_PER_TICK` for each CNT. -/
def Obligations.MicrosIsMonotoneOnRunsThatKeepTime : Prop :=
  ∀ (es : List Event) (s t : State), s.cfg.Valid → s.cnt.toNat ≤ s.cfg.period - 1 →
    s.atBoundary = false → KeepsTime es s t →
    elapsed 32 (microsValue s) (microsValue t) = BitVec.ofNat 32 (s.cfg.usPerTick * cntCount es)

/-- R135 (the spec's own inference from R78 and R80): the CNT that reaches `PERIOD - 1` with an overflow pending makes
MICROS step back by `(PERIOD - 1) * US_PER_TICK`. -/
def Obligations.BoundaryStepsBackwards : Prop :=
  ∀ s t : State, s.cfg.Valid → s.uif = true → s.cnt.toNat + 2 = s.cfg.period → exec .cnt s = .next t →
    microsValue t + BitVec.ofNat 32 ((s.cfg.period - 1) * s.cfg.usPerTick) = microsValue s

/-- R117 (a): a wrap before MICROS and a wrap after it differ by exactly one tick when `PERIOD >= 2`. -/
def Obligations.CoincidingWrapIsOneTick : Prop :=
  ∀ s t : State, s.cfg.Valid → 2 ≤ s.cfg.period → s.uif = false → s.cnt.toNat = s.cfg.period - 1 →
    exec .cnt s = .next t → microsValue t = microsValue s + BitVec.ofNat 32 s.cfg.usPerTick

/-- R135, R138: from a state with nothing pending, a run with fewer than `PERIOD` ticks reaches neither the third row of
R80 nor a missed overflow, whatever the host and the handler do. -/
def Obligations.FewTicksStayOffTheBoundary : Prop :=
  ∀ (es : List Event) (s t : State), s.cfg.Valid → s.cnt.toNat ≤ s.cfg.period - 1 → s.uif = false →
    runEvents es s = .next t → cntCount es < s.cfg.period → t.atBoundary = false ∧ missedCount es s = 0

/-! ### The tick accumulator -/

/-- R66: when its guard holds TICK completes with the five steps: `MS` advances by `MILLIS_INC` and by one more on a
carry, modulo `2^32`; the exact sum `FR + FRACT_INC` carries when it reaches `FRACT_MAX`, which is then subtracted once;
`OVF` advances by one; `UIF` is cleared; no other register changes and there is no response. -/
def Obligations.TickFiveSteps : Prop :=
  encode .tick = 0x8#4 ∧
  ∀ s : State, s.uif = true → s.uie = true → s.gie = true →
    exec .tick s = .next { s with
      ms := if s.cfg.fractInc ≠ 0 ∧ s.cfg.fractMax ≤ s.fr.toNat + s.cfg.fractInc
        then s.ms + BitVec.ofNat 32 s.cfg.millisInc + 1 else s.ms + BitVec.ofNat 32 s.cfg.millisInc,
      fr := if s.cfg.fractInc = 0 then s.fr
        else if s.cfg.fractMax ≤ s.fr.toNat + s.cfg.fractInc
        then BitVec.ofNat 8 (s.fr.toNat + s.cfg.fractInc - s.cfg.fractMax)
        else BitVec.ofNat 8 (s.fr.toNat + s.cfg.fractInc),
      ovf := s.ovf + 1, uif := false, resp := none }

/-- R67 and R68 (the spec's own inferences from R66): with `FR < FRACT_MAX` and `FRACT_INC < FRACT_MAX <= 256` the
remainder stays below the ceiling and fits 8 bits, at most one carry occurs, and the form without the test of
`FRACT_INC` computes the same. -/
def Obligations.FractionStaysBelowTheCeiling : Prop :=
  ∀ s t : State, s.cfg.fractInc < s.cfg.fractMax → s.cfg.fractMax ≤ 256 → s.fr.toNat < s.cfg.fractMax →
    exec .tick s = .next t →
    t.fr.toNat < s.cfg.fractMax ∧
    (if s.cfg.fractMax ≤ s.fr.toNat + s.cfg.fractInc
      then t.fr.toNat + s.cfg.fractMax = s.fr.toNat + s.cfg.fractInc ∧
        t.ms = s.ms + BitVec.ofNat 32 (s.cfg.millisInc + 1)
      else t.fr.toNat = s.fr.toNat + s.cfg.fractInc ∧ t.ms = s.ms + BitVec.ofNat 32 s.cfg.millisInc)

/-- R69 (the spec's own inference by induction from R66): over any run, with `n` its TICK operations, `MS` has advanced by
`n * MILLIS_INC` and by the floor of the accumulated fraction, `FR` is the remainder, and `OVF` has advanced by `n`. -/
def Obligations.ClosedFormOverManyTicks : Prop :=
  ∀ (es : List Event) (s t : State), s.cfg.Valid → s.fr.toNat < s.cfg.fractMax → runEvents es s = .next t →
    t.ms = s.ms + BitVec.ofNat 32
      (tickCount es * s.cfg.millisInc + (s.fr.toNat + tickCount es * s.cfg.fractInc) / s.cfg.fractMax) ∧
    t.fr.toNat = (s.fr.toNat + tickCount es * s.cfg.fractInc) % s.cfg.fractMax ∧
    t.ovf = s.ovf + BitVec.ofNat 32 (tickCount es)

/-- R65, R95 with R42: TICK has a step exactly when `UIF`, `UIE` and `GIE` are all 1, CNT exactly when `CEN = 1`; otherwise
each is turned away under its own name. That a missing step is a refusal is the model's form
(notes/assumptions/5.md). -/
def Obligations.EventsStepExactlyUnderTheirGuards : Prop :=
  ∀ s : State,
    ((∃ t, exec .tick s = .next t) ↔ (s.uif = true ∧ s.uie = true ∧ s.gie = true)) ∧
    ((∃ t, exec .cnt s = .next t) ↔ s.cen = true) ∧
    (¬ (s.uif = true ∧ s.uie = true ∧ s.gie = true) → exec .tick s = .refused .tickNotEnabled) ∧
    (s.cen = false → exec .cnt s = .refused .counterStopped)

/-- R119, R120: after TICK its guard is false until the next wrapping CNT: over any run in which no CNT wraps, whatever else
happens and however many CNT that do not wrap it holds, `UIF` stays 0 and no TICK occurs. -/
def Obligations.TickIsNotRepeatedForOneEvent : Prop :=
  ∀ (es : List Event) (s t u : State), exec .tick s = .next t → wrapCount es t = 0 → runEvents es t = .next u →
    u.uif = false ∧ tickEvent ∉ es

/-! ### The timer -/

/-- R96: when its guard holds CNT completes: at `CNT = PERIOD - 1` the counter returns to 0 and `UIF` is set, else it
counts up by one; no other register changes and there is no response; invariant I2 holds, and one period is exactly
`PERIOD` CNT operations. -/
def Obligations.CntCountsOnePeriod : Prop :=
  encode .cnt = 0x9#4 ∧
  (∀ s : State, s.cen = true →
    exec .cnt s = .next (if s.cnt.toNat = s.cfg.period - 1 then { s with cnt := 0, uif := true, resp := none }
      else { s with cnt := s.cnt + 1, resp := none })) ∧
  (∀ s t : State, s.cfg.Valid → s.cnt.toNat ≤ s.cfg.period - 1 → exec .cnt s = .next t →
    t.cnt.toNat ≤ s.cfg.period - 1) ∧
  (∀ s : State, s.cfg.Valid → s.latency = .any → s.cen = true → s.cnt.toNat ≤ s.cfg.period - 1 →
    runEvents (countEvents s.cfg.period) s = .next { s with uif := true, resp := none })

/-- R98 (b), (c), (e) for the reference timer, with R48: any number of CNT operations, whatever `GIE` is, leaves the ticks
elapsed in the current period in `CNT`, sets `UIF` exactly when a period was completed or it was set, and changes nothing
else; `WRAP` ends with `CNT = 0` and `UIF = 1`. -/
def Obligations.CountingFollowsTheClosedForm : Prop :=
  ∀ (n : Nat) (s : State), s.cfg.Valid → s.latency = .any → s.cen = true → s.cnt.toNat ≤ s.cfg.period - 1 →
    (1 ≤ n → runEvents (countEvents n) s = .next { s with
      cnt := BitVec.ofNat 8 ((s.cnt.toNat + n) % s.cfg.period),
      uif := s.uif || decide (s.cfg.period ≤ s.cnt.toNat + n), resp := none }) ∧
    runEvents (wrapEvents s.cfg.period s.cnt.toNat) s = .next { s with cnt := 0, uif := true, resp := none }

/-- R97: a wrapping CNT while `UIF` is 1 already leaves it 1, and nothing records the event. -/
def Obligations.MissedOverflowLeavesNoTrace : Prop :=
  ∀ s : State, s.cen = true → s.uif = true → s.cnt.toNat = s.cfg.period - 1 →
    exec .cnt s = .next { s with cnt := 0, resp := none }

/-! ### Who changes what -/

/-- The table of R121: whatever the host presents, no data register, no counter and no `UIF` changes; CNT changes at most
`CNT` and `UIF`; TICK changes at most `MS`, `FR`, `OVF` and `UIF`; no operation changes a constant (R20). -/
def Obligations.AgentsWriteOnlyTheirRegisters : Prop :=
  ∀ (e : Event) (s t : State), issue e s = .next t →
    t.cfg = s.cfg ∧ t.latency = s.latency ∧ t.schedule = s.schedule ∧
    (e.source = .host → t.ms = s.ms ∧ t.fr = s.fr ∧ t.ovf = s.ovf ∧ t.cnt = s.cnt ∧ t.uif = s.uif) ∧
    (e.source = .timer → t.ms = s.ms ∧ t.fr = s.fr ∧ t.ovf = s.ovf ∧ t.cen = s.cen ∧ t.uie = s.uie ∧
      t.gie = s.gie ∧ t.resp = none) ∧
    (e.source = .handler → t.cnt = s.cnt ∧ t.cen = s.cen ∧ t.uie = s.uie ∧ t.gie = s.gie ∧ t.resp = none)

/-- R19 and R113, the columns `set by` and `cleared by`: `UIF` is set only by a wrapping CNT and cleared only by TICK,
`CEN` only by TSTART and TSTOP, `UIE` only by TSTART and never cleared, `GIE` only by IEN and IDIS. -/
def Obligations.FlagsChangeOnlyByTheirOperations : Prop :=
  ∀ (e : Event) (s t : State), issue e s = .next t →
    (s.uif = false → t.uif = true → e = cntEvent ∧ s.cnt.toNat = s.cfg.period - 1) ∧
    (s.uif = true → t.uif = false → e = tickEvent) ∧
    (s.cen = false → t.cen = true → e = Instr.event .tstart) ∧
    (s.cen = true → t.cen = false → e = Instr.event .tstop) ∧
    (s.uie = false → t.uie = true → e = Instr.event .tstart) ∧
    (s.uie = true → t.uie = true) ∧
    (s.gie = false → t.gie = true → e = Instr.event .ien) ∧
    (s.gie = true → t.gie = false → e = Instr.event .idis)

/-- R25 (b), (c): no host operation returns `FR`, `CEN`, `UIE` or `GIE`: two states that differ in them alone give the host
the same response to whatever it presents. -/
def Obligations.HostSeesNoHiddenState : Prop :=
  ∀ (s : State) (code : OpCode) (f : Byte) (a b c : Bool), s.cfg.Valid → s.latency = .any →
    ∃ t u : State, issue { source := .host, code := code } s = .next t ∧
      issue { source := .host, code := code } { s with fr := f, cen := a, uie := b, gie := c } = .next u ∧
      t.resp = u.resp

/-! ### Reset and boot -/

/-- R27: reset leaves every register 0 and the constants as elaboration fixed them, for every configuration; the host's
fixed `State.reset` has every register 0 too. -/
def Obligations.ResetLeavesEveryRegisterZero : Prop :=
  (∀ (c : Cfg) (l : HandlerLatency),
    let s := State.resetWith c l
    s.ms = 0 ∧ s.fr = 0 ∧ s.ovf = 0 ∧ s.cnt = 0 ∧ s.uif = false ∧ s.cen = false ∧ s.uie = false ∧ s.gie = false ∧
    s.cfg = c ∧ s.latency = l) ∧
  (State.reset.ms = 0 ∧ State.reset.fr = 0 ∧ State.reset.ovf = 0 ∧ State.reset.cnt = 0 ∧ State.reset.uif = false ∧
    State.reset.cen = false ∧ State.reset.uie = false ∧ State.reset.gie = false)

/-- R23 at reset: the invariants hold at the reset state of every configuration, and at `State.reset`, whose 16 MHz record
is the model's instance (notes/assumptions/2.md). -/
def Obligations.ResetMeetsTheInvariants : Prop :=
  (∀ (c : Cfg) (l : HandlerLatency), c.Valid → (State.resetWith c l).Inv) ∧ State.reset.Inv

/-- R23: every step keeps the invariants, from every state that meets them. -/
def Obligations.StepKeepsTheInvariants : Prop :=
  ∀ s t : State, s.Inv → Sys2Proof.Machine.step s = .next t → t.Inv

/-- R131 with R60: elaboration followed by reset gives no block for a refused clock, and for every other clock a block
with the calculator's constants that meets the invariants. -/
def Obligations.ElaborationBuildsAResetBlock : Prop :=
  ∀ (fCpu : Nat) (l : HandlerLatency),
    (fCpu < 1000 → elaborate fCpu l = .error .clockTooSlow) ∧
    (32768000 ≤ fCpu → elaborate fCpu l = .error .clockTooFast) ∧
    (1000 ≤ fCpu → fCpu < 32768000 →
      ∃ c, calculate fCpu = .ok c ∧ elaborate fCpu l = .ok (State.resetWith c l) ∧ (State.resetWith c l).Inv)

/-- R132: from reset TSTART then IEN and IEN then TSTART reach the same state, `CEN = UIE = GIE = 1` with all counters
0. -/
def Obligations.BootInEitherOrder : Prop :=
  ∀ (c : Cfg) (l : HandlerLatency), c.Valid →
    runEvents initEvents (State.resetWith c l) =
      .next { State.resetWith c l with cen := true, uie := true, gie := true, resp := some { rdata := 0, rerr := false } } ∧
    runEvents [Instr.event .ien, Instr.event .tstart] (State.resetWith c l) = runEvents initEvents (State.resetWith c l)

/-- R133: from reset, a host that omits IEN never sees `MS`, `FR` or `OVF` advance, and a host that omits TSTART gets 0
from every read. -/
def Obligations.UseBeforeBootIsHarmless : Prop :=
  ∀ (c : Cfg) (l : HandlerLatency) (es : List Event) (t : State), runEvents es (State.resetWith c l) = .next t →
    (Instr.event .ien ∉ es → t.ms = 0 ∧ t.fr = 0 ∧ t.ovf = 0) ∧
    (Instr.event .tstart ∉ es → ∀ r ∈ responses es (State.resetWith c l), r.rdata = 0)

/-! ### The calculator -/

/-- R60: the calculator refuses a clock as too fast exactly when no divisor of the set passes the test of R52, that is when
`CPM div 128 >= 256`, that is at 32 768 000 Hz and more, and as too slow exactly below 1000 Hz; in both cases no block
exists, and for every other clock one does. -/
def Obligations.CalculatorRefusesOutOfRangeClocks : Prop :=
  ∀ fCpu : Nat,
    (calculate fCpu = .error .clockTooFast ↔ ∀ d ∈ divSet, 256 ≤ fCpu / 1000 / d) ∧
    (calculate fCpu = .error .clockTooFast ↔ 256 ≤ fCpu / 1000 / 128) ∧
    (calculate fCpu = .error .clockTooFast ↔ 32768000 ≤ fCpu) ∧
    (calculate fCpu = .error .clockTooSlow ↔ fCpu < 1000) ∧
    ((∃ c, calculate fCpu = .ok c) ↔ 1000 ≤ fCpu ∧ fCpu < 32768000) ∧
    ∀ l : HandlerLatency, (∃ s, elaborate fCpu l = .ok s) ↔ ∃ c, calculate fCpu = .ok c

/-- R52 (and its closed form): the divisor is the first element of the set for which `CPM div d < 256`, the least one with
`F_CPU < 256000 * d`. -/
def Obligations.CalculatorSelectsTheFirstDivisor : Prop :=
  ∀ (fCpu : Nat) (c : Cfg), calculate fCpu = .ok c →
    c.fCpu = fCpu ∧ c.divisor ∈ divSet ∧ fCpu / 1000 / c.divisor < 256 ∧ fCpu < 256000 * c.divisor ∧
    ∀ d ∈ divSet, d < c.divisor → 256 ≤ fCpu / 1000 / d ∧ 256000 * d ≤ fCpu

/-- R53 to R59: the constants the calculator derives from the clock and the divisor, over the naturals with floor
division. -/
def Obligations.CalculatorConstants : Prop :=
  ∀ (fCpu : Nat) (c : Cfg), calculate fCpu = .ok c →
    c.divisor = 2 ^ c.pscSel ∧ c.pscSel < 8 ∧
    c.period = fCpu / 1000 / c.divisor ∧
    c.usPerTick = c.divisor * 1000000 / fCpu ∧
    c.usPerOvf = c.divisor * c.period * 1000000 / fCpu ∧
    c.millisInc = c.usPerOvf / 1000 ∧
    c.fractInc = c.usPerOvf % 1000 / 8 ∧
    c.fractMax = 125

/-- R61 (a) to (f) (the spec's own inferences from R51 to R59): the bounds on every output; they give the constraints of
R22. -/
def Obligations.CalculatorOutputsAreBounded : Prop :=
  ∀ (fCpu : Nat) (c : Cfg), calculate fCpu = .ok c →
    c.Valid ∧
    (1 ≤ c.period ∧ c.period ≤ 255) ∧
    c.divisor * c.period ≤ fCpu / 1000 ∧
    (c.usPerOvf ≤ 1000 ∧ c.millisInc ≤ 1 ∧ (c.millisInc = 1 ↔ c.usPerOvf = 1000) ∧
      (c.usPerOvf = 1000 → c.fractInc = 0)) ∧
    (c.fractInc ≤ 124 ∧ c.fractMax = 125) ∧
    (3 ≤ c.usPerTick ∧ c.usPerTick ≤ 1000) ∧
    ∀ f : Nat, f < c.fractMax → f + c.fractInc ≤ 248

/-- The rows of R63: the calculator gives each worked configuration. -/
def Obligations.CalculatorWorkedRows : Prop :=
  calculate 16000000 = .ok ⟨16000000, 64, 6, 250, 4, 1000, 1, 0, 125⟩ ∧
  calculate 8000000 = .ok ⟨8000000, 32, 5, 250, 4, 1000, 1, 0, 125⟩ ∧
  calculate 4000000 = .ok ⟨4000000, 16, 4, 250, 4, 1000, 1, 0, 125⟩ ∧
  calculate 2000000 = .ok ⟨2000000, 8, 3, 250, 4, 1000, 1, 0, 125⟩ ∧
  calculate 1000000 = .ok ⟨1000000, 4, 2, 250, 4, 1000, 1, 0, 125⟩ ∧
  calculate 12000000 = .ok ⟨12000000, 64, 6, 187, 5, 997, 0, 124, 125⟩ ∧
  calculate 20000000 = .ok ⟨20000000, 128, 7, 156, 6, 998, 0, 124, 125⟩ ∧
  calculate 24000000 = .ok ⟨24000000, 128, 7, 187, 5, 997, 0, 124, 125⟩ ∧
  calculate 11059200 = .ok ⟨11059200, 64, 6, 172, 5, 995, 0, 124, 125⟩ ∧
  calculate 256000 = .ok ⟨256000, 2, 1, 128, 7, 1000, 1, 0, 125⟩ ∧
  calculate 255999 = .ok ⟨255999, 1, 0, 255, 3, 996, 0, 124, 125⟩ ∧
  calculate 32767999 = .ok ⟨32767999, 128, 7, 255, 3, 996, 0, 124, 125⟩ ∧
  calculate 32768000 = .error .clockTooFast ∧
  calculate 1999 = .ok ⟨1999, 1, 0, 1, 500, 500, 0, 62, 125⟩ ∧
  calculate 1000 = .ok ⟨1000, 1, 0, 1, 1000, 1000, 1, 0, 125⟩ ∧
  calculate 999 = .error .clockTooSlow

/-- R84 with R62 (the spec's own inference): when a calculated configuration is exact, the two clocks count the same
number of microseconds per overflow; the two validated frequencies are exact. -/
def Obligations.ExactConfigurationsAgree : Prop :=
  (∀ (fCpu : Nat) (c : Cfg), calculate fCpu = .ok c → exactCfg c → usCountedByMillis c = usCountedByMicros c) ∧
  (∃ a b, calculate 16000000 = .ok a ∧ exactCfg a ∧ calculate 8000000 = .ok b ∧ exactCfg b)

/-- R72 (the spec's own inference from R57, R58): the residual error that the shift leaves per overflow is
`(US_PER_OVF mod 1000) mod 8` microseconds. -/
def Obligations.ResidualOfTheShift : Prop :=
  ∀ (fCpu : Nat) (c : Cfg), calculate fCpu = .ok c →
    residualPerOverflow c = c.usPerOvf % 1000 % 8 ∧ usCountedByMillis c ≤ c.usPerOvf

/-! ### The order of a run -/

/-- R42 and R115 on the model's form of a run, which is the model's choice (DESIGN CHOICE, notes/assumptions/4.md): the
operations that the agents issue next stand in State as a list. When the head of the schedule decodes to an operation that
the latency admits, a step is that operation on the state with the rest of the schedule; with an empty schedule there is no
step, which is the model's choice too. -/
def Obligations.StepRunsTheDecodedOperation : Prop :=
  (∀ s : State, s.schedule = [] → Sys2Proof.Machine.step s = .refused .noOperation) ∧
  (∀ (s : State) (e : Event) (rest : List Event) (i : Instr), s.cfg.Valid → s.schedule = e :: rest →
    decode e.source e.code = .ok i →
    (s.latency = .any ∨ s.tickEnabled = false ∨ i = .tick) →
    Sys2Proof.Machine.step s = exec i { s with schedule := rest })

/-- On the model's form of a run, which is the model's choice (DESIGN CHOICE, notes/assumptions/4.md: what the agents issue
next stands in State as a list): the host's run of as many steps as a schedule is long performs exactly that schedule and
leaves the rest. -/
def Obligations.CoreRunPerformsTheSchedule : Prop :=
  ∀ (es rest : List Event) (s : State),
    Host.Core.run Sys2Proof.core es.length { s with schedule := es ++ rest } =
      runEvents es { s with schedule := rest }

/-- R115 (b): under `immediate` an enabled TICK is the next operation, and so MICROS meets `UIF = 1` only when `GIE = 0` or
`UIE = 0`. -/
def Obligations.ImmediateLatencyPutsTickFirst : Prop :=
  ∀ (e : Event) (s t : State), s.latency = .immediate → issue e s = .next t →
    (s.tickEnabled = true → e = tickEvent) ∧
    (e = Instr.event .micros → s.uif = true → s.gie = false ∨ s.uie = false)

/-- R115: `any` admits every run of `immediate`, with the same registers and responses. -/
def Obligations.AnyLatencyAdmitsImmediateRuns : Prop :=
  ∀ (es : List Event) (s t : State), s.latency = .immediate → runEvents es s = .next t →
    runEvents es { s with latency := .any } = .next { t with latency := .any } ∧
    responses es { s with latency := .any } = responses es s

/-- R95: in an unending run that is fair to the timer, once `CEN = 1` and the host issues no TSTOP, CNT occurs without
end. -/
def Obligations.FairRunsCountForever : Prop :=
  ∀ (states : Nat → State) (events : Nat → Event) (n : Nat), UnendingRun states events → CntFair states events →
    (states n).cen = true → (∀ m, n ≤ m → events m ≠ Instr.event .tstop) →
    ∀ k, n ≤ k → ∃ m, k ≤ m ∧ events m = cntEvent

/-- R115 (a): in an unending run that is fair to the handler, once TICK is enabled and the host issues no IDIS, TICK
occurs, and it clears the pending flag. -/
def Obligations.FairRunsServeThePendingOverflow : Prop :=
  ∀ (states : Nat → State) (events : Nat → Event) (n : Nat), UnendingRun states events → TickFair states events →
    (states n).tickEnabled = true → (∀ m, n ≤ m → events m ≠ Instr.event .idis) →
    ∃ m, n ≤ m ∧ events m = tickEvent ∧ (states (m + 1)).uif = false

/-! ### Clients -/

/-- R8: the difference in the same width is the elapsed amount, across a wrap too. -/
def Obligations.ElapsedIsSafeAcrossTheWrap : Prop :=
  ∀ (n : Nat) (a : BitVec n) (k : Nat), k < 2 ^ n → (elapsed n a (a + BitVec.ofNat n k)).toNat = k

/-- R102: `delay` advances its marker by exactly 1000 modulo `2^16` for each millisecond counted, and on a clock that only
moves forward it never counts a millisecond that has not elapsed, for either form of the poll and however far apart the
polls are. That the remaining count is a natural number without a width, that both forms of the poll are admitted, and that
the marker is taken before the loop is the model's choice (DESIGN CHOICE, notes/assumptions/15.md). -/
def Obligations.DelayNeverCountsTooMuch : Prop :=
  ∀ (form : PollForm) (ms first : Nat) (polls : List Nat), (first :: polls).Pairwise (· ≤ ·) →
    let d := delay form ms (BitVec.ofNat 32 first) (polls.map (BitVec.ofNat 32))
    d.remaining ≤ ms ∧
    d.start = BitVec.ofNat 16 (first + 1000 * (ms - d.remaining)) ∧
    first + 1000 * (ms - d.remaining) ≤ (first :: polls).getLastD 0

/-- R104: `delay(0)` issues one MICROS, no further operation, and never invokes the yield hook. -/
def Obligations.DelayZeroReturnsAtOnce : Prop :=
  ∀ (form : PollForm) (now : Word) (polls : List Word),
    (delay form 0 now polls).yields = 0 ∧ (delay form 0 now polls).reads = 1 ∧ (delay form 0 now polls).remaining = 0

/-! ### A host that omits IEN -/

/-- R133 of a host that omits only IEN, from reset under any schedule: `MS`, `FR` and `OVF` stay 0, `UIF` once set stays,
every value the host reads is `x * US_PER_TICK` for some `x` of at most `2 * PERIOD - 2`; and the sweep reaches that value,
`2 * PERIOD - 2` CNT after TSTART, from where the next CNT makes it fall back to `(PERIOD - 1) * US_PER_TICK`. -/
def Obligations.OmittedIenLetsMicrosSweep : Prop :=
  ∀ (c : Cfg) (l : HandlerLatency), c.Valid →
    (∀ (es fs : List Event) (t u : State), Instr.event .ien ∉ es → Instr.event .ien ∉ fs →
      runEvents es (State.resetWith c l) = .next t → runEvents fs t = .next u →
      t.ms = 0 ∧ t.fr = 0 ∧ t.ovf = 0 ∧ (t.uif = true → u.uif = true) ∧
      ∀ r ∈ responses es (State.resetWith c l),
        ∃ x, x ≤ 2 * c.period - 2 ∧ r.rdata = BitVec.ofNat 32 (x * c.usPerTick)) ∧
    (2 ≤ c.period → ∃ t u : State,
      runEvents (Instr.event .tstart :: countEvents (2 * c.period - 2)) (State.resetWith c l) = .next t ∧
      microsValue t = BitVec.ofNat 32 ((2 * c.period - 2) * c.usPerTick) ∧
      issue cntEvent t = .next u ∧
      microsValue u = BitVec.ofNat 32 ((c.period - 1) * c.usPerTick))
end

