-- ==== Sys2Proof/Laws/State.lean ====
section
/-! SUPPORT. One lemma per field per update of the state, so that no proof unfolds a record update. -/

namespace Sys2Proof.Machine

@[simp] theorem State.setCounters_ms (s : State) (m : Word) (f : Byte) (o : Word) : (s.setCounters m f o).ms = m := rfl
@[simp] theorem State.setCounters_fr (s : State) (m : Word) (f : Byte) (o : Word) : (s.setCounters m f o).fr = f := rfl
@[simp] theorem State.setCounters_ovf (s : State) (m : Word) (f : Byte) (o : Word) : (s.setCounters m f o).ovf = o := rfl
@[simp] theorem State.setCounters_cnt (s : State) (m : Word) (f : Byte) (o : Word) : (s.setCounters m f o).cnt = s.cnt := rfl
@[simp] theorem State.setCounters_uif (s : State) (m : Word) (f : Byte) (o : Word) : (s.setCounters m f o).uif = s.uif := rfl
@[simp] theorem State.setCounters_cen (s : State) (m : Word) (f : Byte) (o : Word) : (s.setCounters m f o).cen = s.cen := rfl
@[simp] theorem State.setCounters_uie (s : State) (m : Word) (f : Byte) (o : Word) : (s.setCounters m f o).uie = s.uie := rfl
@[simp] theorem State.setCounters_gie (s : State) (m : Word) (f : Byte) (o : Word) : (s.setCounters m f o).gie = s.gie := rfl
@[simp] theorem State.setCounters_resp (s : State) (m : Word) (f : Byte) (o : Word) : (s.setCounters m f o).resp = s.resp := rfl
@[simp] theorem State.setCounters_cfg (s : State) (m : Word) (f : Byte) (o : Word) : (s.setCounters m f o).cfg = s.cfg := rfl
@[simp] theorem State.setCounters_latency (s : State) (m : Word) (f : Byte) (o : Word) : (s.setCounters m f o).latency = s.latency := rfl
@[simp] theorem State.setCounters_schedule (s : State) (m : Word) (f : Byte) (o : Word) : (s.setCounters m f o).schedule = s.schedule := rfl

@[simp] theorem State.setCnt_ms (s : State) (c : Byte) : (s.setCnt c).ms = s.ms := rfl
@[simp] theorem State.setCnt_fr (s : State) (c : Byte) : (s.setCnt c).fr = s.fr := rfl
@[simp] theorem State.setCnt_ovf (s : State) (c : Byte) : (s.setCnt c).ovf = s.ovf := rfl
@[simp] theorem State.setCnt_cnt (s : State) (c : Byte) : (s.setCnt c).cnt = c := rfl
@[simp] theorem State.setCnt_uif (s : State) (c : Byte) : (s.setCnt c).uif = s.uif := rfl
@[simp] theorem State.setCnt_cen (s : State) (c : Byte) : (s.setCnt c).cen = s.cen := rfl
@[simp] theorem State.setCnt_uie (s : State) (c : Byte) : (s.setCnt c).uie = s.uie := rfl
@[simp] theorem State.setCnt_gie (s : State) (c : Byte) : (s.setCnt c).gie = s.gie := rfl
@[simp] theorem State.setCnt_resp (s : State) (c : Byte) : (s.setCnt c).resp = s.resp := rfl
@[simp] theorem State.setCnt_cfg (s : State) (c : Byte) : (s.setCnt c).cfg = s.cfg := rfl
@[simp] theorem State.setCnt_latency (s : State) (c : Byte) : (s.setCnt c).latency = s.latency := rfl
@[simp] theorem State.setCnt_schedule (s : State) (c : Byte) : (s.setCnt c).schedule = s.schedule := rfl

@[simp] theorem State.setUif_ms (s : State) (b : Bool) : (s.setUif b).ms = s.ms := rfl
@[simp] theorem State.setUif_fr (s : State) (b : Bool) : (s.setUif b).fr = s.fr := rfl
@[simp] theorem State.setUif_ovf (s : State) (b : Bool) : (s.setUif b).ovf = s.ovf := rfl
@[simp] theorem State.setUif_cnt (s : State) (b : Bool) : (s.setUif b).cnt = s.cnt := rfl
@[simp] theorem State.setUif_uif (s : State) (b : Bool) : (s.setUif b).uif = b := rfl
@[simp] theorem State.setUif_cen (s : State) (b : Bool) : (s.setUif b).cen = s.cen := rfl
@[simp] theorem State.setUif_uie (s : State) (b : Bool) : (s.setUif b).uie = s.uie := rfl
@[simp] theorem State.setUif_gie (s : State) (b : Bool) : (s.setUif b).gie = s.gie := rfl
@[simp] theorem State.setUif_resp (s : State) (b : Bool) : (s.setUif b).resp = s.resp := rfl
@[simp] theorem State.setUif_cfg (s : State) (b : Bool) : (s.setUif b).cfg = s.cfg := rfl
@[simp] theorem State.setUif_latency (s : State) (b : Bool) : (s.setUif b).latency = s.latency := rfl
@[simp] theorem State.setUif_schedule (s : State) (b : Bool) : (s.setUif b).schedule = s.schedule := rfl

@[simp] theorem State.setCen_ms (s : State) (b : Bool) : (s.setCen b).ms = s.ms := rfl
@[simp] theorem State.setCen_fr (s : State) (b : Bool) : (s.setCen b).fr = s.fr := rfl
@[simp] theorem State.setCen_ovf (s : State) (b : Bool) : (s.setCen b).ovf = s.ovf := rfl
@[simp] theorem State.setCen_cnt (s : State) (b : Bool) : (s.setCen b).cnt = s.cnt := rfl
@[simp] theorem State.setCen_uif (s : State) (b : Bool) : (s.setCen b).uif = s.uif := rfl
@[simp] theorem State.setCen_cen (s : State) (b : Bool) : (s.setCen b).cen = b := rfl
@[simp] theorem State.setCen_uie (s : State) (b : Bool) : (s.setCen b).uie = s.uie := rfl
@[simp] theorem State.setCen_gie (s : State) (b : Bool) : (s.setCen b).gie = s.gie := rfl
@[simp] theorem State.setCen_resp (s : State) (b : Bool) : (s.setCen b).resp = s.resp := rfl
@[simp] theorem State.setCen_cfg (s : State) (b : Bool) : (s.setCen b).cfg = s.cfg := rfl
@[simp] theorem State.setCen_latency (s : State) (b : Bool) : (s.setCen b).latency = s.latency := rfl
@[simp] theorem State.setCen_schedule (s : State) (b : Bool) : (s.setCen b).schedule = s.schedule := rfl

@[simp] theorem State.setUie_ms (s : State) (b : Bool) : (s.setUie b).ms = s.ms := rfl
@[simp] theorem State.setUie_fr (s : State) (b : Bool) : (s.setUie b).fr = s.fr := rfl
@[simp] theorem State.setUie_ovf (s : State) (b : Bool) : (s.setUie b).ovf = s.ovf := rfl
@[simp] theorem State.setUie_cnt (s : State) (b : Bool) : (s.setUie b).cnt = s.cnt := rfl
@[simp] theorem State.setUie_uif (s : State) (b : Bool) : (s.setUie b).uif = s.uif := rfl
@[simp] theorem State.setUie_cen (s : State) (b : Bool) : (s.setUie b).cen = s.cen := rfl
@[simp] theorem State.setUie_uie (s : State) (b : Bool) : (s.setUie b).uie = b := rfl
@[simp] theorem State.setUie_gie (s : State) (b : Bool) : (s.setUie b).gie = s.gie := rfl
@[simp] theorem State.setUie_resp (s : State) (b : Bool) : (s.setUie b).resp = s.resp := rfl
@[simp] theorem State.setUie_cfg (s : State) (b : Bool) : (s.setUie b).cfg = s.cfg := rfl
@[simp] theorem State.setUie_latency (s : State) (b : Bool) : (s.setUie b).latency = s.latency := rfl
@[simp] theorem State.setUie_schedule (s : State) (b : Bool) : (s.setUie b).schedule = s.schedule := rfl

@[simp] theorem State.setGie_ms (s : State) (b : Bool) : (s.setGie b).ms = s.ms := rfl
@[simp] theorem State.setGie_fr (s : State) (b : Bool) : (s.setGie b).fr = s.fr := rfl
@[simp] theorem State.setGie_ovf (s : State) (b : Bool) : (s.setGie b).ovf = s.ovf := rfl
@[simp] theorem State.setGie_cnt (s : State) (b : Bool) : (s.setGie b).cnt = s.cnt := rfl
@[simp] theorem State.setGie_uif (s : State) (b : Bool) : (s.setGie b).uif = s.uif := rfl
@[simp] theorem State.setGie_cen (s : State) (b : Bool) : (s.setGie b).cen = s.cen := rfl
@[simp] theorem State.setGie_uie (s : State) (b : Bool) : (s.setGie b).uie = s.uie := rfl
@[simp] theorem State.setGie_gie (s : State) (b : Bool) : (s.setGie b).gie = b := rfl
@[simp] theorem State.setGie_resp (s : State) (b : Bool) : (s.setGie b).resp = s.resp := rfl
@[simp] theorem State.setGie_cfg (s : State) (b : Bool) : (s.setGie b).cfg = s.cfg := rfl
@[simp] theorem State.setGie_latency (s : State) (b : Bool) : (s.setGie b).latency = s.latency := rfl
@[simp] theorem State.setGie_schedule (s : State) (b : Bool) : (s.setGie b).schedule = s.schedule := rfl

@[simp] theorem State.setResp_ms (s : State) (r : Option Response) : (s.setResp r).ms = s.ms := rfl
@[simp] theorem State.setResp_fr (s : State) (r : Option Response) : (s.setResp r).fr = s.fr := rfl
@[simp] theorem State.setResp_ovf (s : State) (r : Option Response) : (s.setResp r).ovf = s.ovf := rfl
@[simp] theorem State.setResp_cnt (s : State) (r : Option Response) : (s.setResp r).cnt = s.cnt := rfl
@[simp] theorem State.setResp_uif (s : State) (r : Option Response) : (s.setResp r).uif = s.uif := rfl
@[simp] theorem State.setResp_cen (s : State) (r : Option Response) : (s.setResp r).cen = s.cen := rfl
@[simp] theorem State.setResp_uie (s : State) (r : Option Response) : (s.setResp r).uie = s.uie := rfl
@[simp] theorem State.setResp_gie (s : State) (r : Option Response) : (s.setResp r).gie = s.gie := rfl
@[simp] theorem State.setResp_resp (s : State) (r : Option Response) : (s.setResp r).resp = r := rfl
@[simp] theorem State.setResp_cfg (s : State) (r : Option Response) : (s.setResp r).cfg = s.cfg := rfl
@[simp] theorem State.setResp_latency (s : State) (r : Option Response) : (s.setResp r).latency = s.latency := rfl
@[simp] theorem State.setResp_schedule (s : State) (r : Option Response) : (s.setResp r).schedule = s.schedule := rfl

@[simp] theorem State.setSchedule_ms (s : State) (es : List Event) : (s.setSchedule es).ms = s.ms := rfl
@[simp] theorem State.setSchedule_fr (s : State) (es : List Event) : (s.setSchedule es).fr = s.fr := rfl
@[simp] theorem State.setSchedule_ovf (s : State) (es : List Event) : (s.setSchedule es).ovf = s.ovf := rfl
@[simp] theorem State.setSchedule_cnt (s : State) (es : List Event) : (s.setSchedule es).cnt = s.cnt := rfl
@[simp] theorem State.setSchedule_uif (s : State) (es : List Event) : (s.setSchedule es).uif = s.uif := rfl
@[simp] theorem State.setSchedule_cen (s : State) (es : List Event) : (s.setSchedule es).cen = s.cen := rfl
@[simp] theorem State.setSchedule_uie (s : State) (es : List Event) : (s.setSchedule es).uie = s.uie := rfl
@[simp] theorem State.setSchedule_gie (s : State) (es : List Event) : (s.setSchedule es).gie = s.gie := rfl
@[simp] theorem State.setSchedule_resp (s : State) (es : List Event) : (s.setSchedule es).resp = s.resp := rfl
@[simp] theorem State.setSchedule_cfg (s : State) (es : List Event) : (s.setSchedule es).cfg = s.cfg := rfl
@[simp] theorem State.setSchedule_latency (s : State) (es : List Event) : (s.setSchedule es).latency = s.latency := rfl
@[simp] theorem State.setSchedule_schedule (s : State) (es : List Event) : (s.setSchedule es).schedule = es := rfl

@[simp] theorem State.resetWith_ms (c : Cfg) (l : HandlerLatency) : (State.resetWith c l).ms = 0 := rfl
@[simp] theorem State.resetWith_fr (c : Cfg) (l : HandlerLatency) : (State.resetWith c l).fr = 0 := rfl
@[simp] theorem State.resetWith_ovf (c : Cfg) (l : HandlerLatency) : (State.resetWith c l).ovf = 0 := rfl
@[simp] theorem State.resetWith_cnt (c : Cfg) (l : HandlerLatency) : (State.resetWith c l).cnt = 0 := rfl
@[simp] theorem State.resetWith_uif (c : Cfg) (l : HandlerLatency) : (State.resetWith c l).uif = false := rfl
@[simp] theorem State.resetWith_cen (c : Cfg) (l : HandlerLatency) : (State.resetWith c l).cen = false := rfl
@[simp] theorem State.resetWith_uie (c : Cfg) (l : HandlerLatency) : (State.resetWith c l).uie = false := rfl
@[simp] theorem State.resetWith_gie (c : Cfg) (l : HandlerLatency) : (State.resetWith c l).gie = false := rfl
@[simp] theorem State.resetWith_resp (c : Cfg) (l : HandlerLatency) : (State.resetWith c l).resp = none := rfl
@[simp] theorem State.resetWith_cfg (c : Cfg) (l : HandlerLatency) : (State.resetWith c l).cfg = c := rfl
@[simp] theorem State.resetWith_latency (c : Cfg) (l : HandlerLatency) : (State.resetWith c l).latency = l := rfl
@[simp] theorem State.resetWith_schedule (c : Cfg) (l : HandlerLatency) : (State.resetWith c l).schedule = [] := rfl

end Sys2Proof.Machine
end

