-- ==== Sys2Proof/Laws/Ops.lean ====
section
/-! SUPPORT. What each shared operation can do, said once: field lemmas of the two event transitions, and one inversion
lemma for each function that may or may not answer a next state. -/

namespace Sys2Proof.Machine

/-! ### Outcomes -/

theorem eq_next_of_nextOf (o : Host.Outcome State Fault Refusal) (t : State) (h : nextOf o = some t) : o = .next t := by
  cases o with
  | next u => cases h; rfl
  | fault r => cases h
  | refused r => cases h

/-! ### Responses -/

theorem answer_next_iff (v : Word) (s t : State) :
    answer v s = .next t ↔ t = s.setResp (some { rdata := v, rerr := false }) := by
  simp [answer, eq_comm]

theorem silent_next_iff (s t : State) : silent s = .next t ↔ t = s.setResp none := by
  simp [silent, eq_comm]

theorem raiseIllegalOp_next_iff (s t : State) :
    raiseIllegalOp s = .next t ↔ t = s.setResp (some { rdata := 0, rerr := true }) := by
  simp [raiseIllegalOp, eq_comm]

/-! ### The fields of the two event transitions -/

@[simp] theorem serviceOverflow_ms (s : State) :
    (serviceOverflow s).ms = advanceMillis s.cfg s.ms (accumulateFraction s.cfg s.fr.toNat).2 := rfl
@[simp] theorem serviceOverflow_fr (s : State) :
    (serviceOverflow s).fr = BitVec.ofNat 8 (accumulateFraction s.cfg s.fr.toNat).1 := rfl
@[simp] theorem serviceOverflow_ovf (s : State) : (serviceOverflow s).ovf = s.ovf + 1 := rfl
@[simp] theorem serviceOverflow_cnt (s : State) : (serviceOverflow s).cnt = s.cnt := rfl
@[simp] theorem serviceOverflow_uif (s : State) : (serviceOverflow s).uif = false := rfl
@[simp] theorem serviceOverflow_cen (s : State) : (serviceOverflow s).cen = s.cen := rfl
@[simp] theorem serviceOverflow_uie (s : State) : (serviceOverflow s).uie = s.uie := rfl
@[simp] theorem serviceOverflow_gie (s : State) : (serviceOverflow s).gie = s.gie := rfl
@[simp] theorem serviceOverflow_resp (s : State) : (serviceOverflow s).resp = s.resp := rfl
@[simp] theorem serviceOverflow_cfg (s : State) : (serviceOverflow s).cfg = s.cfg := rfl
@[simp] theorem serviceOverflow_latency (s : State) : (serviceOverflow s).latency = s.latency := rfl
@[simp] theorem serviceOverflow_schedule (s : State) : (serviceOverflow s).schedule = s.schedule := rfl

theorem atPeriodEnd_iff (s : State) : s.atPeriodEnd = true ↔ s.cnt.toNat = s.cfg.period - 1 := by
  simp [State.atPeriodEnd]

@[simp] theorem countTick_cnt (s : State) :
    (countTick s).cnt = if s.atPeriodEnd then 0 else s.cnt + 1 := by
  unfold countTick; split <;> rfl
@[simp] theorem countTick_uif (s : State) :
    (countTick s).uif = (s.uif || s.atPeriodEnd) := by
  unfold countTick; split <;> simp_all
@[simp] theorem countTick_ms (s : State) : (countTick s).ms = s.ms := by
  unfold countTick; split <;> rfl
@[simp] theorem countTick_fr (s : State) : (countTick s).fr = s.fr := by
  unfold countTick; split <;> rfl
@[simp] theorem countTick_ovf (s : State) : (countTick s).ovf = s.ovf := by
  unfold countTick; split <;> rfl
@[simp] theorem countTick_cen (s : State) : (countTick s).cen = s.cen := by
  unfold countTick; split <;> rfl
@[simp] theorem countTick_uie (s : State) : (countTick s).uie = s.uie := by
  unfold countTick; split <;> rfl
@[simp] theorem countTick_gie (s : State) : (countTick s).gie = s.gie := by
  unfold countTick; split <;> rfl
@[simp] theorem countTick_resp (s : State) : (countTick s).resp = s.resp := by
  unfold countTick; split <;> rfl
@[simp] theorem countTick_cfg (s : State) : (countTick s).cfg = s.cfg := by
  unfold countTick; split <;> rfl
@[simp] theorem countTick_latency (s : State) : (countTick s).latency = s.latency := by
  unfold countTick; split <;> rfl
@[simp] theorem countTick_schedule (s : State) : (countTick s).schedule = s.schedule := by
  unfold countTick; split <;> rfl

/-! ### The carry of the fraction -/

/-- The two results of step 3 of TICK: below the ceiling nothing is carried, at or above it the ceiling is subtracted
once and one is carried. -/
theorem accumulateFraction_cases (c : Cfg) (f : Nat) :
    accumulateFraction c f = (f, false) ∧ c.fractInc = 0 ∨
    accumulateFraction c f = (f + c.fractInc - c.fractMax, true) ∧ c.fractInc ≠ 0 ∧ c.fractMax ≤ f + c.fractInc ∨
    accumulateFraction c f = (f + c.fractInc, false) ∧ c.fractInc ≠ 0 ∧ f + c.fractInc < c.fractMax := by
  unfold accumulateFraction
  split
  · exact .inl ⟨rfl, ‹_›⟩
  · split
    · exact .inr (.inl ⟨rfl, ‹_›, ‹_›⟩)
    · exact .inr (.inr ⟨rfl, ‹_›, by omega⟩)

/-! ### The clock reader -/

@[simp] theorem snapshot_overflows (s : State) : (snapshot s).overflows = s.ovf := rfl
@[simp] theorem snapshot_ticks (s : State) : (snapshot s).ticks = s.cnt := rfl
@[simp] theorem snapshot_pending (s : State) : (snapshot s).pending = s.uif := rfl

theorem compensates_iff (p : Nat) (x : Snapshot) :
    compensates p x = true ↔ x.pending = true ∧ x.ticks.toNat < p - 1 := by
  unfold compensates
  rw [Bool.and_eq_true, decide_eq_true_iff]

/-- The two values of the local overflow count. -/
theorem compensated_eq (p : Nat) (x : Snapshot) :
    compensated p x = if x.pending = true ∧ x.ticks.toNat < p - 1 then x.overflows + 1 else x.overflows := by
  unfold compensated
  exact if_congr (compensates_iff p x) rfl rfl

/-- MICROS reads `OVF`, `CNT`, `UIF` and the constants, and nothing else. -/
theorem microsValue_congr (s t : State) (hc : t.cfg = s.cfg) (ho : t.ovf = s.ovf) (hn : t.cnt = s.cnt)
    (hu : t.uif = s.uif) : microsValue t = microsValue s := by
  simp only [microsValue, snapshot, hc, ho, hn, hu]

/-! ### Which outcomes go on -/

theorem execTick_next_iff (s t : State) :
    execTick s = .next t ↔ s.tickEnabled = true ∧ t = (serviceOverflow s).setResp none := by
  unfold execTick
  split <;> simp_all [silent_next_iff]

theorem execCnt_next_iff (s t : State) :
    execCnt s = .next t ↔ s.cntEnabled = true ∧ t = (countTick s).setResp none := by
  unfold execCnt
  split <;> simp_all [silent_next_iff]

theorem tickEnabled_iff (s : State) :
    s.tickEnabled = true ↔ s.uif = true ∧ s.uie = true ∧ s.gie = true := by
  simp [State.tickEnabled, and_assoc]

theorem cntEnabled_iff (s : State) : s.cntEnabled = true ↔ s.cen = true := Iff.rfl

/-- What performing an event can do, when it goes on. -/
theorem perform_next (e : Event) (s t : State) (h : perform e s = .next t) :
    (∃ i, decode e.source e.code = .ok i ∧ exec i s = .next t) ∨
    (∃ c, decode e.source e.code = .error (.illegalOp c) ∧
      t = s.setResp (some { rdata := 0, rerr := true })) := by
  unfold perform at h
  split at h
  · exact .inl ⟨_, ‹_›, h⟩
  · exact .inr ⟨_, ‹_›, (raiseIllegalOp_next_iff s t).1 h⟩
  · cases h

/-- An event goes on exactly when the record is a configuration, the latency admits it, and performing it goes on. -/
theorem issue_next_iff (e : Event) (s t : State) :
    issue e s = .next t ↔ s.cfg.Valid ∧ admits e s = true ∧ perform e s = .next t := by
  unfold issue
  split
  · rename_i hv
    split
    · rename_i ha
      exact ⟨fun h => ⟨hv, ha, h⟩, fun h => h.2.2⟩
    · rename_i ha
      exact ⟨(fun h => nomatch h), fun h => absurd h.2.1 ha⟩
  · rename_i hv
    exact ⟨(fun h => nomatch h), fun h => absurd h.1 hv⟩

/-- Everything one event can do to the state, once it goes on: the nine operations and the illegal host code. -/
inductive Occurs (s : State) : Event → State → Prop where
  | nop : Occurs s (Instr.event .nop) (s.setResp (some { rdata := 0, rerr := false }))
  | millis : Occurs s (Instr.event .millis) (s.setResp (some { rdata := s.ms, rerr := false }))
  | micros : Occurs s (Instr.event .micros) (s.setResp (some { rdata := microsValue s, rerr := false }))
  | tstart : Occurs s (Instr.event .tstart)
      (((s.setCen true).setUie true).setResp (some { rdata := 0, rerr := false }))
  | tstop : Occurs s (Instr.event .tstop) ((s.setCen false).setResp (some { rdata := 0, rerr := false }))
  | idis : Occurs s (Instr.event .idis) ((s.setGie false).setResp (some { rdata := 0, rerr := false }))
  | ien : Occurs s (Instr.event .ien) ((s.setGie true).setResp (some { rdata := 0, rerr := false }))
  | tick : s.tickEnabled = true → Occurs s tickEvent ((serviceOverflow s).setResp none)
  | cnt : s.cntEnabled = true → Occurs s cntEvent ((countTick s).setResp none)
  | illegal (code : OpCode) : code ∉ Source.codes .host →
      Occurs s { source := .host, code := code } (s.setResp (some { rdata := 0, rerr := true }))

/-- The one inversion of `perform`: every proof about what an event does is a case analysis on `Occurs`. -/
theorem perform_occurs (e : Event) (s t : State) (h : perform e s = .next t) : Occurs s e t := by
  obtain ⟨source, code⟩ := e
  cases source with
  | host =>
    unfold perform decode decodeHost at h
    dsimp only at h
    split at h
    · rename_i i hi
      split at hi <;> cases hi <;> cases h <;> constructor
    · rename_i c hc
      split at hc <;> cases hc
      rename_i h0 h1 h2 h4 h5 h6 h7
      cases h
      refine .illegal _ fun hmem => ?_
      simp only [Source.codes, List.mem_cons, List.not_mem_nil, or_false] at hmem
      rcases hmem with rfl | rfl | rfl | rfl | rfl | rfl | rfl <;> contradiction
    · rename_i c d hc
      split at hc <;> cases hc
  | timer =>
    by_cases hc : code = 0x9#4
    · subst hc
      obtain ⟨hg, rfl⟩ := (execCnt_next_iff s t).1 h
      exact .cnt hg
    · simp [perform, decode, hc] at h
  | handler =>
    by_cases hc : code = 0x8#4
    · subst hc
      obtain ⟨hg, rfl⟩ := (execTick_next_iff s t).1 h
      exact .tick hg
    · simp [perform, decode, hc] at h

theorem issue_occurs (e : Event) (s t : State) (h : issue e s = .next t) : Occurs s e t :=
  perform_occurs e s t ((issue_next_iff e s t).1 h).2.2

theorem admits_any (e : Event) (s : State) (h : s.latency = .any) : admits e s = true := by
  simp [admits, h]

@[simp] theorem runEvents_nil (s : State) : runEvents [] s = .next s := rfl

/-- A run of one event more is that event and then the run. -/
theorem runEvents_cons_next (e : Event) (es : List Event) (s t : State) :
    runEvents (e :: es) s = .next t ↔ ∃ u, issue e s = .next u ∧ runEvents es u = .next t := by
  constructor
  · intro h
    unfold runEvents at h
    split at h
    · exact ⟨_, ‹_›, h⟩
    · cases h
    · cases h
  · rintro ⟨u, hu, h⟩
    unfold runEvents
    rw [hu]
    exact h

theorem missedCount_cons (e : Event) (es : List Event) (s u : State) (h : issue e s = .next u) :
    missedCount (e :: es) s =
      (if e = cntEvent ∧ s.wouldMissOverflow = true then 1 else 0) + missedCount es u := by
  rw [missedCount, h]

theorem wrapCount_cons (e : Event) (es : List Event) (s u : State) (h : issue e s = .next u) :
    wrapCount (e :: es) s = (if e = cntEvent ∧ s.atPeriodEnd = true then 1 else 0) + wrapCount es u := by
  rw [wrapCount, h]

theorem responses_cons (e : Event) (es : List Event) (s u : State) (h : issue e s = .next u) :
    responses (e :: es) s = u.resp.toList ++ responses es u := by
  rw [responses, h]

theorem fetch_cons (s : State) (e : Event) (rest : List Event) (h : s.schedule = e :: rest) :
    fetch s = some (e, s.setSchedule rest) := by
  simp [fetch, h]

theorem fetch_nil (s : State) (h : s.schedule = []) : fetch s = none := by
  simp [fetch, h]

/-- A step that goes on issues the head of the schedule in the state with the rest of it. -/
theorem step_next (s t : State) (h : step s = .next t) :
    ∃ e rest, s.schedule = e :: rest ∧ issue e (s.setSchedule rest) = .next t := by
  unfold step at h
  cases hs : s.schedule with
  | nil => simp [fetch_nil s hs] at h
  | cons e rest => exact ⟨e, rest, rfl, by simpa [fetch_cons s e rest hs] using h⟩

end Sys2Proof.Machine
end

