-- ==== Sys2Proof/Laws/PerInstr.lean ====
section
/-! SUPPORT. Statements about every operation as syntax, one lemma per constructor. -/

namespace Sys2Proof.Laws

/-- The code of an operation is one its own agent may issue, and its format bit says whether that agent is the host
(spec 30_encoding.md R40, R41). -/
def OwnAgentCode.Statement (i : Instr) : Prop :=
  i.event.WellFormed ∧ (formatOf (encode i) = .host ↔ i.issuer = .host)

theorem OwnAgentCode.nop : OwnAgentCode.Statement .nop := by unfold OwnAgentCode.Statement; decide
theorem OwnAgentCode.millis : OwnAgentCode.Statement .millis := by unfold OwnAgentCode.Statement; decide
theorem OwnAgentCode.micros : OwnAgentCode.Statement .micros := by unfold OwnAgentCode.Statement; decide
theorem OwnAgentCode.tstart : OwnAgentCode.Statement .tstart := by unfold OwnAgentCode.Statement; decide
theorem OwnAgentCode.tstop : OwnAgentCode.Statement .tstop := by unfold OwnAgentCode.Statement; decide
theorem OwnAgentCode.idis : OwnAgentCode.Statement .idis := by unfold OwnAgentCode.Statement; decide
theorem OwnAgentCode.ien : OwnAgentCode.Statement .ien := by unfold OwnAgentCode.Statement; decide
theorem OwnAgentCode.tick : OwnAgentCode.Statement .tick := by unfold OwnAgentCode.Statement; decide
theorem OwnAgentCode.cnt : OwnAgentCode.Statement .cnt := by unfold OwnAgentCode.Statement; decide

end Sys2Proof.Laws
end

