-- ==== Sys2Proof/Tests/Slice0.lean ====
section
/-! SUPPORT. Tests: the vectors of spec/95_test_vectors.md and words written out from spec/30_encoding.md R41, ill-formed
terms that the well-formedness checks refuse, and for every statement with hypotheses a state and operands that meet
them. -/

namespace Sys2Proof.Tests

open Sys2Proof.Machine

/-- Configuration C of 95_test_vectors.md: 12 MHz. -/
def cfgC : Cfg := ⟨12000000, 64, 6, 187, 5, 997, 0, 124, 125⟩

/-- Configuration D of 95_test_vectors.md: 1000 Hz, `PERIOD = 1`. -/
def cfgD : Cfg := ⟨1000, 1, 0, 1, 1000, 1000, 1, 0, 125⟩

/-- The generic configuration G(2, 255, 256) of 95_test_vectors.md, with `PERIOD = 2`. -/
def cfgG : Cfg := ⟨0, 1, 0, 2, 1, 0, 2, 255, 256⟩

/-- A state as the tuple of 95_test_vectors.md, under a configuration. -/
def blk (c : Cfg) (ms : Word) (fr : Byte) (ovf : Word) (cnt : Byte) (uif cen uie gie : Bool) : State :=
  { ms := ms, fr := fr, ovf := ovf, cnt := cnt, uif := uif, cen := cen, uie := uie, gie := gie, resp := none,
    cfg := c, latency := .any, schedule := [] }

/-- The 16 MHz configuration, A of 95_test_vectors.md. -/
abbrev cfgA : Cfg := Cfg.source16MHz

/-- The value a host operation answers, where it answers one without error. -/
def valueOf (o : Host.Outcome State Fault Refusal) : Option Word :=
  match nextOf o with
  | some t => t.resp.bind fun r => if r.rerr then none else some r.rdata
  | none => none

/-! ### Well-formedness: one ill-formed term for each check (R22 (a) to (f), R42) -/

theorem test_valid_source : cfgA.Valid := by decide
theorem test_valid_generic : cfgG.Valid ∧ cfgC.Valid ∧ cfgD.Valid := by decide
theorem test_refuses_divisor_outside_set : ¬ { cfgA with divisor := 3 }.Valid := by decide
theorem test_refuses_divisor_not_its_code : ¬ { cfgA with pscSel := 5 }.Valid := by decide
theorem test_refuses_code_of_four_bits : ¬ { cfgA with divisor := 256, pscSel := 8 }.Valid := by decide
theorem test_refuses_period_zero : ¬ { cfgA with period := 0 }.Valid := by decide
theorem test_refuses_period_256 : ¬ { cfgA with period := 256 }.Valid := by decide
theorem test_refuses_ceiling_zero : ¬ { cfgA with fractMax := 0 }.Valid := by decide
theorem test_refuses_ceiling_257 : ¬ { cfgA with fractMax := 257 }.Valid := by decide
theorem test_refuses_increment_at_ceiling : ¬ { cfgA with fractInc := 125 }.Valid := by decide
theorem test_refuses_wide_millis_increment : ¬ { cfgA with millisInc := 2 ^ 32 }.Valid := by decide
theorem test_refuses_wide_tick_factor : ¬ { cfgA with usPerTick := 2 ^ 32 }.Valid := by decide
theorem test_refuses_tick_from_host : ¬ Event.WellFormed ⟨.host, 0x8#4⟩ := by decide
theorem test_refuses_reserved_from_host : ¬ Event.WellFormed ⟨.host, 0x3#4⟩ := by decide
theorem test_refuses_tick_from_timer : ¬ Event.WellFormed ⟨.timer, 0x8#4⟩ := by decide
theorem test_refuses_cnt_from_handler : ¬ Event.WellFormed ⟨.handler, 0x9#4⟩ := by decide

/-! ### Decoding: the words of R41, bit by bit -/

theorem test_decode_nop : decode .host 0b0000#4 = .ok .nop := by rfl
theorem test_decode_millis : decode .host 0b0001#4 = .ok .millis := by rfl
theorem test_decode_micros : decode .host 0b0010#4 = .ok .micros := by rfl
theorem test_decode_tstart : decode .host 0b0100#4 = .ok .tstart := by rfl
theorem test_decode_tstop : decode .host 0b0101#4 = .ok .tstop := by rfl
theorem test_decode_idis : decode .host 0b0110#4 = .ok .idis := by rfl
theorem test_decode_ien : decode .host 0b0111#4 = .ok .ien := by rfl
theorem test_decode_tick : decode .handler 0b1000#4 = .ok .tick := by rfl
theorem test_decode_cnt : decode .timer 0b1001#4 = .ok .cnt := by rfl
theorem test_decode_reserved : decode .host 0b0011#4 = .error (.illegalOp 0b0011#4) := by rfl
theorem test_decode_tick_from_host : decode .host 0b1000#4 = .error (.illegalOp 0b1000#4) := by rfl
theorem test_format_and_number :
    formatOf 0b1001#4 = .event ∧ operationNumber 0b1001#4 = 0b001#3 ∧
    formatOf 0b0110#4 = .host ∧ operationNumber 0b0110#4 = 0b110#3 := by decide
theorem test_table_words_refused :
    decodeTableWord 8 0x3 = none ∧ decodeTableWord 8 0xA = none ∧ decodeTableWord 8 0x10 = none := by decide

/-- Every row of the table runs as the first operation after reset, when it is placed. -/
theorem test_table_rows_run_after_reset :
    ∀ w ∈ [0, 1, 2, 4, 5, 6, 7, 8, 9], (nextOf (step (State.reset.withFetchWord 8 w))).isSome = true := by decide

/-! ### The calculator: K1, K10, K13, K16 -/

theorem test_calculator_k1 : calculate 16000000 = .ok cfgA := by decide
theorem test_calculator_k6 : calculate 12000000 = .ok cfgC := by decide
theorem test_calculator_k10 : calculate 256000 = .ok ⟨256000, 2, 1, 128, 7, 1000, 1, 0, 125⟩ := by decide
theorem test_calculator_k13 : calculate 32768000 = .error .clockTooFast := by decide
theorem test_calculator_k16 : calculate 999 = .error .clockTooSlow := by decide

/-! ### TICK: T14, T20, T21 and a guard vector -/

theorem test_tick_t20 :
    nextOf (exec .tick (blk { cfgA with fractInc := 3 } 0xFFFFFFFE 124 7 0 true true true true)) =
      some (blk { cfgA with fractInc := 3 } 0 2 8 0 false true true true) := by decide
theorem test_tick_t21 :
    nextOf (exec .tick (blk cfgG 0 255 0 0 true false true true)) =
      some (blk cfgG 3 254 1 0 false false true true) := by decide
theorem test_tick_masked : nextOf (exec .tick (blk cfgA 0 0 0 0 true true true false)) = none := by decide

/-! ### MILLIS: L3, L4; MICROS: M3, M4, M13, M19 -/

theorem test_millis_l3 : valueOf (exec .millis (blk cfgA 4 0 4 10 true true true false)) = some 4 := by decide
theorem test_millis_l4 :
    valueOf (exec .millis (blk cfgA 0xFFFFFFFF 7 2 0 false true true true)) = some 0xFFFFFFFF := by decide
theorem test_micros_m3_m4 :
    valueOf (exec .micros (blk cfgA 0 0 4 248 true true true true)) = some 5992 ∧
    valueOf (exec .micros (blk cfgA 0 0 4 249 true true true true)) = some 4996 := by decide
theorem test_micros_m10_m13_m18 :
    valueOf (exec .micros (blk cfgA 0 0 0xFFFFFFFF 249 false true true true)) = some 4294967292 ∧
    valueOf (exec .micros (blk cfgA 0 0 4294967 74 false true true true)) = some 0 ∧
    valueOf (exec .micros (blk cfgC 0 0 3 185 true true true true)) = some 4665 := by decide

/-! ### Control operations: X2, X5, X6, X7, X9; NOP: X1 -/

theorem test_tstart_x2 :
    (nextOf (exec .tstart State.reset)).map (fun t => (t.cen, t.uie, t.gie, t.resp)) =
      some (true, true, false, some ⟨0, false⟩) := by decide
theorem test_tstart_x6 :
    (nextOf (exec .tstart (blk cfgA 0 0 0 17 false false true true))).map (fun t => (t.cnt, t.cen)) =
      some (17, true) := by decide
theorem test_tstop_x5 :
    (nextOf (exec .tstop (blk cfgA 0 0 0 17 false true true true))).map (fun t => (t.cnt, t.cen, t.uie, t.gie)) =
      some (17, false, true, true) := by decide
theorem test_idis_x7 :
    (nextOf (exec .idis (blk cfgA 2 0 2 5 false true true true))).map (fun t => (t.cen, t.uie, t.gie)) =
      some (true, true, false) := by decide
theorem test_ien_x9 :
    (nextOf (exec .ien (blk cfgA 2 0 2 5 false true true false))).map (fun t => (t.cen, t.uie, t.gie)) =
      some (true, true, true) := by decide
theorem test_nop_x1 :
    nextOf (exec .nop State.reset) = some (State.reset.setResp (some ⟨0, false⟩)) := by decide

/-! ### CNT: N3, N4, N5, N6 -/

theorem test_cnt_n2_n3_n6 :
    nextOf (exec .cnt (blk cfgA 0 0 0 248 false true true true)) = some (blk cfgA 0 0 0 249 false true true true) ∧
    nextOf (exec .cnt (blk cfgA 0 0 0 249 false true true true)) = some (blk cfgA 0 0 0 0 true true true true) ∧
    nextOf (exec .cnt (blk cfgD 0 0 0 0 false true true true)) = some (blk cfgD 0 0 0 0 true true true true) := by decide
theorem test_cnt_n4_n5 :
    nextOf (exec .cnt (blk cfgA 0 0 0 249 true true true false)) = some (blk cfgA 0 0 0 0 true true true false) ∧
    nextOf (exec .cnt (blk cfgA 0 0 0 5 false false true true)) = none := by decide

/-! ### Illegal codes, agents, latency, schedule: P11 and U17, U18 -/

theorem test_illegal_codes_p11 :
    responses [⟨.host, 0x3#4⟩, ⟨.host, 0x1#4⟩, ⟨.host, 0x8#4⟩, ⟨.host, 0x2#4⟩, ⟨.host, 0xF#4⟩]
      (blk cfgA 4 0 4 100 false true true true) =
      [⟨0, true⟩, ⟨4, false⟩, ⟨0, true⟩, ⟨4400, false⟩, ⟨0, true⟩] := by decide
theorem test_immediate_waits_for_tick :
    let s := { blk cfgA 0 0 0 0 true true true true with latency := .immediate }
    nextOf (issue (Instr.event .nop) s) = none ∧ (nextOf (issue tickEvent s)).isSome = true := by decide
theorem test_no_configuration_no_step :
    nextOf (issue (Instr.event .nop) (blk { cfgA with period := 0 } 0 0 0 0 false true true true)) = none := by decide
theorem test_empty_schedule_no_step : nextOf (step State.reset) = none := by decide

/-! ### Written traces: P1 in the written form, under configuration D -/

theorem test_trace_reads :
    readTrace ("INIT ; CNT*2 # two ticks\nMICROS -> 8\nCRIT ".toList ++ Char.ofNat 123 :: " MILLIS ".toList ++ [Char.ofNat 125]) =
      some [.init, .counts 2, .op .micros (some 8), .critOpen, .op .millis none, .critClose] := by decide
theorem test_trace_refuses :
    readTrace "FOO".toList = none ∧ readTrace "NOP -> 3".toList = none ∧ readTrace ("CRIT ".toList ++ Char.ofNat 123 :: " NOP".toList) = none := by
  decide
theorem test_trace_p1_under_d :
    (runTrace "INIT ; OVERFLOW*4 ; MILLIS -> 4 ; MICROS -> 4000".toList (State.resetWith cfgD .any)).isSome = true := by
  decide

/-! ### `delay`: the end of P4, one poll at the boundary -/

theorem test_delay_p4_step_10 :
    let d := Delay.poll .drain true [66500, 66500] ⟨2, 65500, 9, 10⟩
    d.remaining = 1 ∧ d.start = 964 ∧ d.yields = 10 ∧ d.reads = 12 := by decide
theorem test_delay_not_due_below_1000 :
    (Delay.poll .once true [66499] ⟨2, 65500, 0, 1⟩).remaining = 2 := by decide

/-! ### Witnesses: for every statement with hypotheses, inputs that meet them -/

theorem witness_DecodeIsTheOperationMap :
    decode .handler 0b1000#4 = .ok .tick ∧ decode .host 0b1111#4 = .error (.illegalOp 0b1111#4) := ⟨rfl, rfl⟩

theorem witness_HostPortAnswersEveryCode :
    State.reset.cfg.Valid ∧ admits ⟨.host, 0x3#4⟩ State.reset = true ∧ admits ⟨.host, 0x7#4⟩ State.reset = true ∧
    0x3#4 ∈ [0x3#4, 0x8#4, 0x9#4, 0xA#4, 0xB#4, 0xC#4, 0xD#4, 0xE#4, 0xF#4] ∧
    0x7#4 ∉ [0x3#4, 0x8#4, 0x9#4, 0xA#4, 0xB#4, 0xC#4, 0xD#4, 0xE#4, 0xF#4] := by decide

theorem witness_TstartStartsTheTimer : ∃ t, exec .tstart State.reset = .next t := ⟨_, rfl⟩

theorem witness_StoppedTimerHoldsTheClock :
    ∃ t,
      let s := blk cfgA 0 0 0 248 true false true true
      s.cen = false ∧ s.cnt.toNat ≤ s.cfg.period - 1 ∧ Instr.event .tstart ∉ [tickEvent, Instr.event .micros] ∧
      runEvents [tickEvent, Instr.event .micros] s = .next t ∧ s.atBoundary = false :=
  ⟨_, by decide, by decide, by decide, eq_next_of_nextOf _ ((blk cfgA 1 0 1 248 false false true true).setResp (some ⟨1992, false⟩)) (by decide), by decide⟩

theorem witness_IdisSuspendsDelivery :
    (∃ t,
      let s := blk cfgA 0 0 0 249 false true true false
      s.gie = false ∧ Instr.event .ien ∉ [cntEvent, Instr.event .millis] ∧
      runEvents [cntEvent, Instr.event .millis] s = .next t) ∧
    (let s := blk cfgA 0 0 0 249 false true true false;
      s.gie = false ∧ s.cen = true ∧ s.cnt.toNat = s.cfg.period - 1) :=
  ⟨⟨_, by decide, by decide, eq_next_of_nextOf _ ((blk cfgA 0 0 0 0 true true true false).setResp (some ⟨0, false⟩)) (by decide)⟩, by decide⟩

theorem witness_IenRestoresDelivery :
    (∃ t,
      let s := blk cfgA 0 0 0 0 true true true false
      s.uif = true ∧ s.uie = true ∧ exec .ien s = .next t) ∧
    (∃ t, exec .tstart (State.resetWith cfgC .immediate) = .next t) :=
  ⟨⟨_, rfl, rfl, rfl⟩, ⟨_, rfl⟩⟩

theorem witness_CriticalSectionsDoNotNest : State.reset.cfg.Valid ∧ State.reset.latency = .any := by decide

theorem witness_HostOperationsAreTotal : Instr.micros.issuer = .host := rfl

theorem witness_MillisIsConstantBetweenTicks :
    ∃ t u,
      let s := blk cfgA 4 0 4 249 false true true true
      tickEvent ∉ [cntEvent, Instr.event .idis] ∧ exec .millis s = .next t ∧
      runEvents [cntEvent, Instr.event .idis] t = .next u ∧ t.resp = some { rdata := 4, rerr := false } :=
  ⟨_, (blk cfgA 4 0 4 0 true true true false).setResp (some ⟨0, false⟩), by decide, rfl,
    eq_next_of_nextOf _ _ (by decide), rfl⟩

theorem witness_MicrosByCaseOfTheSnapshot :
    (let s := blk cfgA 0 0 4 249 false true true true;
      s.cfg.Valid ∧ s.cnt.toNat ≤ s.cfg.period - 1 ∧ s.uif = false) ∧
    (let s := blk cfgA 0 0 4 248 true true true true;
      s.cfg.Valid ∧ s.cnt.toNat ≤ s.cfg.period - 1 ∧ s.uif = true ∧ s.cnt.toNat + 2 ≤ s.cfg.period) ∧
    (let s := blk cfgA 0 0 4 249 true true true true;
      s.cfg.Valid ∧ s.cnt.toNat ≤ s.cfg.period - 1 ∧ s.uif = true ∧ s.cnt.toNat = s.cfg.period - 1) ∧
    (let s := blk cfgD 0 0 5 0 true true true true;
      s.cfg.Valid ∧ s.cnt.toNat ≤ s.cfg.period - 1 ∧ s.cfg.period = 1) ∧
    (let s := blk cfgG 0 0 5 1 true true true true;
      s.cfg.Valid ∧ s.cnt.toNat ≤ s.cfg.period - 1 ∧ s.cfg.period = 2 ∧ s.uif = true ∧ s.cnt.toNat ≠ 0) := by
  refine ⟨?_, ?_, ?_, ?_, ?_⟩ <;> decide

theorem witness_MicrosContinuousAcrossTheWrap :
    let s := blk cfgA 0 0 0xFFFFFFFF 248 false true true true
    s.uif = false ∧ s.cnt.toNat < s.cfg.period - 1 := by decide

theorem witness_TickKeepsMicros :
    ∃ t,
      let s := blk cfgA 0 0 0 248 true true true true
      s.cnt.toNat < s.cfg.period - 1 ∧ exec .tick s = .next t := ⟨_, by decide, rfl⟩

/-- A run over the wrap with the overflow missed: from a pending overflow two ticks before the second wrap, to just
after it. -/
theorem witness_MicrosAdvancesByTicksLessMissed :
    ∃ t,
      let s := blk cfgG 0 0 0 0 true true true false
      s.cfg.Valid ∧ s.cnt.toNat ≤ s.cfg.period - 1 ∧ s.atBoundary = false ∧
      runEvents [cntEvent, cntEvent] s = .next t ∧ t.atBoundary = false ∧ missedCount [cntEvent, cntEvent] s = 1 :=
  ⟨blk cfgG 0 0 0 0 true true true false, by decide, by decide, by decide, eq_next_of_nextOf _ _ (by decide), by decide, by decide⟩

theorem witness_MicrosIsMonotoneOnRunsThatKeepTime :
    ∃ t,
      let s := blk cfgA 0 0 0 249 false true true true
      s.cfg.Valid ∧ s.cnt.toNat ≤ s.cfg.period - 1 ∧ s.atBoundary = false ∧ KeepsTime [cntEvent, tickEvent, cntEvent] s t :=
  ⟨blk cfgA 1 0 1 1 false true true true, by decide, by decide, by decide,
    eq_next_of_nextOf _ _ (by decide), by decide, by decide⟩

theorem witness_BoundaryStepsBackwards :
    ∃ t,
      let s := blk cfgA 0 0 0 248 true true true false
      s.cfg.Valid ∧ s.uif = true ∧ s.cnt.toNat + 2 = s.cfg.period ∧ exec .cnt s = .next t :=
  ⟨_, by decide, by decide, by decide, rfl⟩

theorem witness_CoincidingWrapIsOneTick :
    ∃ t,
      let s := blk cfgA 0 0 0 249 false true true true
      s.cfg.Valid ∧ 2 ≤ s.cfg.period ∧ s.uif = false ∧ s.cnt.toNat = s.cfg.period - 1 ∧ exec .cnt s = .next t :=
  ⟨_, by decide, by decide, by decide, by decide, rfl⟩

theorem witness_FewTicksStayOffTheBoundary :
    ∃ t,
      let s := blk cfgG 0 0 0 1 false true true false
      s.cfg.Valid ∧ s.cnt.toNat ≤ s.cfg.period - 1 ∧ s.uif = false ∧ runEvents [cntEvent] s = .next t ∧
      cntCount [cntEvent] < s.cfg.period :=
  ⟨blk cfgG 0 0 0 0 true true true false, by decide, by decide, by decide, eq_next_of_nextOf _ _ (by decide), by decide⟩

theorem witness_TickFiveSteps :
    let s := blk cfgC 5 1 9 0 true true true true
    s.uif = true ∧ s.uie = true ∧ s.gie = true := by decide

/-- Both clauses: the sum one below the ceiling, and the sum exactly at it. -/
theorem witness_FractionStaysBelowTheCeiling :
    (∃ t,
      let s := blk cfgC 5 0 9 0 true true true true
      s.cfg.fractInc < s.cfg.fractMax ∧ s.cfg.fractMax ≤ 256 ∧ s.fr.toNat < s.cfg.fractMax ∧ exec .tick s = .next t ∧
      ¬ s.cfg.fractMax ≤ s.fr.toNat + s.cfg.fractInc) ∧
    (∃ t,
      let s := blk cfgC 5 1 9 0 true true true true
      s.cfg.fractInc < s.cfg.fractMax ∧ s.cfg.fractMax ≤ 256 ∧ s.fr.toNat < s.cfg.fractMax ∧ exec .tick s = .next t ∧
      s.cfg.fractMax ≤ s.fr.toNat + s.cfg.fractInc) :=
  ⟨⟨_, by decide, by decide, by decide, rfl, by decide⟩, ⟨_, by decide, by decide, by decide, rfl, by decide⟩⟩

theorem witness_ClosedFormOverManyTicks :
    ∃ t,
      let s := blk cfgC 5 1 9 186 true true true true
      s.cfg.Valid ∧ s.fr.toNat < s.cfg.fractMax ∧ runEvents [tickEvent, cntEvent, tickEvent] s = .next t :=
  ⟨blk cfgC 6 124 11 0 false true true true, by decide, by decide, eq_next_of_nextOf _ _ (by decide)⟩

theorem witness_EventsStepExactlyUnderTheirGuards :
    ¬ (State.reset.uif = true ∧ State.reset.uie = true ∧ State.reset.gie = true) ∧ State.reset.cen = false := by decide

theorem witness_TickIsNotRepeatedForOneEvent :
    ∃ t u, exec .tick (blk cfgA 0 0 0 248 true true true true) = .next t ∧
      wrapCount [Instr.event .ien, cntEvent] t = 0 ∧ runEvents [Instr.event .ien, cntEvent] t = .next u :=
  ⟨blk cfgA 1 0 1 248 false true true true, blk cfgA 1 0 1 249 false true true true,
    eq_next_of_nextOf _ _ (by decide), by decide, eq_next_of_nextOf _ _ (by decide)⟩

/-- One CNT later the run has a wrap, and the TICK after it is a second event's (R120). -/
theorem test_tick_after_the_wrap :
    wrapCount [cntEvent, tickEvent] (blk cfgA 1 0 1 249 false true true true) = 1 := by decide

theorem witness_CntCountsOnePeriod :
    (∃ t,
      let s := blk cfgA 0 0 0 249 false true true true
      s.cfg.Valid ∧ s.latency = .any ∧ s.cen = true ∧ s.cnt.toNat ≤ s.cfg.period - 1 ∧ exec .cnt s = .next t) :=
  ⟨_, by decide, rfl, rfl, by decide, rfl⟩

theorem witness_CountingFollowsTheClosedForm :
    let s := blk cfgA 0 0 0 249 false true true true
    s.cfg.Valid ∧ s.latency = .any ∧ s.cen = true ∧ s.cnt.toNat ≤ s.cfg.period - 1 ∧ 1 ≤ 1 := by decide

theorem witness_MissedOverflowLeavesNoTrace :
    let s := blk cfgA 0 0 0 249 true true true false
    s.cen = true ∧ s.uif = true ∧ s.cnt.toNat = s.cfg.period - 1 := by decide

/-- One event of each agent that goes on. -/
theorem witness_AgentsWriteOnlyTheirRegisters :
    let s := blk cfgA 0 0 0 249 true true true true
    (nextOf (issue (Instr.event .tstop) s)).isSome = true ∧ (nextOf (issue cntEvent s)).isSome = true ∧
    (nextOf (issue tickEvent s)).isSome = true ∧ (nextOf (issue ⟨.host, 0xF#4⟩ s)).isSome = true := by decide

/-- Each change of a flag happens. -/
theorem witness_FlagsChangeOnlyByTheirOperations :
    (let s := blk cfgA 0 0 0 249 false true true true;
      s.uif = false ∧ (nextOf (issue cntEvent s)).map (·.uif) = some true) ∧
    (let s := blk cfgA 0 0 0 0 true true true true;
      s.uif = true ∧ (nextOf (issue tickEvent s)).map (·.uif) = some false) ∧
    (let s := blk cfgA 0 0 0 0 false false false false;
      (nextOf (issue (Instr.event .tstart) s)).map (fun t => (t.cen, t.uie)) = some (true, true) ∧
      (nextOf (issue (Instr.event .ien) s)).map (·.gie) = some true) ∧
    (let s := blk cfgA 0 0 0 0 false true true true;
      (nextOf (issue (Instr.event .tstop) s)).map (fun t => (t.cen, t.uie)) = some (false, true) ∧
      (nextOf (issue (Instr.event .idis) s)).map (·.gie) = some false) := by decide

theorem witness_HostSeesNoHiddenState : State.reset.cfg.Valid ∧ State.reset.latency = .any := by decide

theorem witness_ResetMeetsTheInvariants : cfgC.Valid := by decide

theorem witness_StepKeepsTheInvariants :
    ∃ t,
      let s := { blk cfgA 3 0 3 0 true true true true with schedule := [tickEvent] }
      s.Inv ∧ step s = .next t :=
  ⟨blk cfgA 4 0 4 0 false true true true, by decide, eq_next_of_nextOf _ _ (by decide)⟩

/-- The clauses at the edges of their ranges. -/
theorem witness_ElaborationBuildsAResetBlock :
    (elaborate 999 .any).toOption.isNone = true ∧ (elaborate 1000 .any).toOption.isSome = true ∧
    (elaborate 32767999 .any).toOption.isSome = true ∧ (elaborate 32768000 .any).toOption.isNone = true := by decide

theorem witness_BootInEitherOrder : cfgC.Valid := by decide

theorem witness_UseBeforeBootIsHarmless :
    (∃ t, runEvents [Instr.event .tstart, cntEvent] (State.resetWith cfgD .any) = .next t ∧
      Instr.event .ien ∉ [Instr.event .tstart, cntEvent]) ∧
    (∃ t, runEvents [Instr.event .ien, Instr.event .micros] (State.resetWith cfgD .any) = .next t ∧
      Instr.event .tstart ∉ [Instr.event .ien, Instr.event .micros] ∧
      responses [Instr.event .ien, Instr.event .micros] (State.resetWith cfgD .any) ≠ []) :=
  ⟨⟨_, eq_next_of_nextOf _ (blk cfgD 0 0 0 0 true true true false) (by decide), by decide⟩,
    ⟨_, eq_next_of_nextOf _ ((blk cfgD 0 0 0 0 false false false true).setResp (some ⟨0, false⟩)) (by decide),
      by decide, by decide⟩⟩

theorem witness_CalculatorSelectsTheFirstDivisor : calculate 255999 = .ok ⟨255999, 1, 0, 255, 3, 996, 0, 124, 125⟩ := by
  decide

theorem witness_CalculatorConstants :
    calculate 11059200 = .ok ⟨11059200, 64, 6, 172, 5, 995, 0, 124, 125⟩ := by decide

theorem witness_CalculatorOutputsAreBounded :
    ∃ c, calculate 1000 = .ok c ∧ 124 < c.fractMax := ⟨cfgD, by decide, by decide⟩

theorem witness_ExactConfigurationsAgree : calculate 16000000 = .ok cfgA ∧ exactCfg cfgA := by decide

theorem witness_ResidualOfTheShift : calculate 12000000 = .ok cfgC := by decide

/-- The three cases in which the latency admits the operation. -/
theorem witness_StepRunsTheDecodedOperation :
    State.reset.schedule = [] ∧
    (let s := { blk cfgA 0 0 0 0 true true true true with latency := .immediate, schedule := [tickEvent] };
      s.cfg.Valid ∧ s.schedule = tickEvent :: [] ∧ decode tickEvent.source tickEvent.code = .ok .tick ∧
      s.tickEnabled = true) ∧
    (let s := { blk cfgA 0 0 0 0 true true true false with latency := .immediate, schedule := [Instr.event .ien] };
      s.cfg.Valid ∧ s.tickEnabled = false) ∧
    State.reset.latency = .any := by
  refine ⟨rfl, ⟨by decide, rfl, rfl, rfl⟩, by decide, rfl⟩

theorem witness_ImmediateLatencyPutsTickFirst :
    (∃ t,
      let s := { blk cfgA 0 0 0 0 true true true true with latency := .immediate }
      s.latency = .immediate ∧ issue tickEvent s = .next t ∧ s.tickEnabled = true) ∧
    (∃ t,
      let s := { blk cfgA 0 0 0 0 true true true false with latency := .immediate }
      s.latency = .immediate ∧ issue (Instr.event .micros) s = .next t ∧ s.uif = true) :=
  ⟨⟨{ blk cfgA 1 0 1 0 false true true true with latency := .immediate }, rfl, eq_next_of_nextOf _ _ (by decide), rfl⟩,
    ⟨{ blk cfgA 0 0 0 0 true true true false with latency := .immediate, resp := some ⟨1000, false⟩ }, rfl,
      eq_next_of_nextOf _ _ (by decide), rfl⟩⟩

theorem witness_AnyLatencyAdmitsImmediateRuns :
    ∃ t,
      let s := { blk cfgA 0 0 0 249 false true true true with latency := .immediate }
      s.latency = .immediate ∧ runEvents [cntEvent, tickEvent] s = .next t :=
  ⟨{ blk cfgA 1 0 1 0 false true true true with latency := .immediate }, rfl, eq_next_of_nextOf _ _ (by decide)⟩

theorem masked_cnt_repeats :
    issue cntEvent (blk cfgD 0 0 0 0 true true true false) = .next (blk cfgD 0 0 0 0 true true true false) :=
  eq_next_of_nextOf _ _ (by decide)

/-- The unending run of a masked block with `PERIOD = 1`: every CNT wraps into a flag that is set already. -/
theorem witness_FairRunsCountForever :
    let s := blk cfgD 0 0 0 0 true true true false
    UnendingRun (fun _ => s) (fun _ => cntEvent) ∧ CntFair (fun _ => s) (fun _ => cntEvent) ∧ s.cen = true ∧
      (∀ m, 0 ≤ m → cntEvent ≠ Instr.event .tstop) :=
  ⟨fun _ => masked_cnt_repeats, fun n _ => ⟨n, le_refl n, rfl⟩, rfl, fun _ _ => by decide⟩

/-- The block after that overflow, the host doing nothing. -/
abbrev idleBlk : State := (blk cfgA 1 0 1 0 false false true true).setResp (some ⟨0, false⟩)

theorem idle_nop_repeats : issue (Instr.event .nop) idleBlk = .next idleBlk := eq_next_of_nextOf _ _ (by decide)

theorem idle_tick_disabled : ¬ idleBlk.tickEnabled = true := by decide

theorem nop_is_not_idis : Instr.event .nop ≠ Instr.event .idis := by decide

/-- The states of an unending run that serves one overflow and then lets the host do nothing. -/
def servedThenIdle : Nat → State
  | 0 => blk cfgA 0 0 0 0 true false true true
  | 1 => blk cfgA 1 0 1 0 false false true true
  | _ + 2 => idleBlk

/-- The events of that run. -/
def tickThenNop : Nat → Event
  | 0 => tickEvent
  | _ + 1 => Instr.event .nop

theorem witness_FairRunsServeThePendingOverflow :
    UnendingRun servedThenIdle tickThenNop ∧ TickFair servedThenIdle tickThenNop ∧
      (servedThenIdle 0).tickEnabled = true ∧ (∀ m, 0 ≤ m → tickThenNop m ≠ Instr.event .idis) := by
  refine ⟨fun n => ?_, fun n h => ?_, rfl, fun m _ => ?_⟩
  · match n with
    | 0 => exact eq_next_of_nextOf _ _ (by decide)
    | 1 => exact eq_next_of_nextOf _ _ (by decide)
    | _ + 2 => exact idle_nop_repeats
  · exact absurd (h (n + 2) (by omega)) idle_tick_disabled
  · match m with
    | 0 => decide
    | _ + 1 => exact nop_is_not_idis

theorem witness_ElapsedIsSafeAcrossTheWrap : (1000 : Nat) < 2 ^ 16 := by decide

theorem witness_DelayNeverCountsTooMuch : ([65500, 65600, 66500, 66500, 200000] : List Nat).Pairwise (· ≤ ·) := by decide

/-- P8 in small, with `PERIOD = 2`: the overflow is pending and MICROS, at `CNT = 0`, is at the top of its sweep. -/
theorem witness_OmittedIenLetsMicrosSweep :
    ∃ t u,
      let es := [Instr.event .tstart, cntEvent, cntEvent, Instr.event .micros]
      cfgG.Valid ∧ Instr.event .ien ∉ es ∧ Instr.event .ien ∉ [cntEvent] ∧
      runEvents es (State.resetWith cfgG .any) = .next t ∧ runEvents [cntEvent] t = .next u ∧ t.uif = true ∧
      { rdata := 2, rerr := false } ∈ responses es (State.resetWith cfgG .any) ∧ 2 ≤ cfgG.period :=
  ⟨(blk cfgG 0 0 0 0 true true true false).setResp (some ⟨2, false⟩), blk cfgG 0 0 0 1 true true true false,
    by decide, by decide, by decide, eq_next_of_nextOf _ _ (by decide), eq_next_of_nextOf _ _ (by decide), rfl,
    by decide, by decide⟩

end Sys2Proof.Tests
end

section
/-! PROOFS. Scope (spec 00_scope.md R8, 42_clock_reader.md R82). A client takes the elapsed amount as a difference in the
counter's own width; on runs that keep time that difference, for MICROS, is the ticks in microseconds. The second part
goes through `countedTicks`, which every operation but CNT keeps and CNT raises by one, less a missed period. -/

namespace Sys2Proof.Machine

/-! ### The comparison law -/

/-- The same-width difference recovers any amount added, however often the counter wraps in between. -/
@[simp] theorem elapsed_add (n : Nat) (a d : BitVec n) : elapsed n a (a + d) = d := by
  rw [elapsed, BitVec.add_comm, BitVec.add_sub_cancel]

/-- Settles O55: an amount below the modulus is the difference itself. -/
theorem elapsedIsSafeAcrossTheWrap : Obligations.ElapsedIsSafeAcrossTheWrap := by
  intro n a k hk
  rw [elapsed_add, BitVec.toNat_ofNat, Nat.mod_eq_of_lt hk]

/-! ### What one event does to the registers MICROS reads -/

/-- For the registers of the snapshot (R77) there are three kinds of event: those that leave all of them, TICK and CNT. -/
theorem Occurs.clock_cases {e : Event} {s t : State} (h : Occurs s e t) :
    (e ≠ cntEvent ∧ t.cfg = s.cfg ∧ t.ovf = s.ovf ∧ t.cnt = s.cnt ∧ t.uif = s.uif) ∨
    (e = tickEvent ∧ s.tickEnabled = true ∧ t = (serviceOverflow s).setResp none) ∨
    (e = cntEvent ∧ s.cntEnabled = true ∧ t = (countTick s).setResp none) := by
  cases h with
  | nop | millis | micros | tstart | tstop | idis | ien => exact .inl ⟨by decide, rfl, rfl, rfl, rfl⟩
  | illegal code _ => exact .inl ⟨fun he => (nomatch congrArg Event.source he), rfl, rfl, rfl, rfl⟩
  | tick hg => exact .inr (.inl ⟨rfl, hg, rfl⟩)
  | cnt hg => exact .inr (.inr ⟨rfl, hg, rfl⟩)

theorem tickEvent_ne_cntEvent : tickEvent ≠ cntEvent := by decide

theorem issue_cfg {e : Event} {s t : State} (h : issue e s = .next t) : t.cfg = s.cfg := by
  obtain ⟨_, hcfg, _, _, _⟩ | ⟨_, _, rfl⟩ | ⟨_, _, rfl⟩ := (issue_occurs e s t h).clock_cases
  · exact hcfg
  · rfl
  · exact countTick_cfg s

theorem runEvents_cfg (es : List Event) (s t : State) (h : runEvents es s = .next t) : t.cfg = s.cfg := by
  induction es generalizing s with
  | nil => cases h; rfl
  | cons e es ih =>
    obtain ⟨u, hu, hrun⟩ := (runEvents_cons_next e es s t).1 h
    exact (ih u hrun).trans (issue_cfg hu)

/-! ### The counter stays in the period -/

/-- Below the end of the period, a tick is an increment that does not wrap the byte. -/
theorem countTick_cnt_toNat {s : State} (hv : s.cfg.Valid) (hcnt : s.cnt.toNat ≤ s.cfg.period - 1)
    (hend : s.atPeriodEnd = false) : (countTick s).cnt.toNat = s.cnt.toNat + 1 := by
  obtain ⟨_, ⟨_, hmax⟩, _⟩ := hv
  have hone : (1 : Byte).toNat = 1 := rfl
  rw [countTick_cnt, hend, if_neg Bool.false_ne_true, BitVec.toNat_add, hone]
  omega

theorem countTick_cnt_le {s : State} (hv : s.cfg.Valid) (hcnt : s.cnt.toNat ≤ s.cfg.period - 1) :
    (countTick s).cnt.toNat ≤ s.cfg.period - 1 := by
  by_cases hend : s.atPeriodEnd = true
  · simp [hend]
  · have hne : s.cnt.toNat ≠ s.cfg.period - 1 := fun heq => hend ((atPeriodEnd_iff s).2 heq)
    rw [countTick_cnt_toNat hv hcnt (by simpa using hend)]
    omega

theorem issue_cnt_le {e : Event} {s t : State} (hcnt : s.cnt.toNat ≤ s.cfg.period - 1)
    (h : issue e s = .next t) : t.cnt.toNat ≤ t.cfg.period - 1 := by
  have hv : s.cfg.Valid := ((issue_next_iff e s t).1 h).1
  rw [issue_cfg h]
  obtain ⟨_, _, _, hc, _⟩ | ⟨_, _, rfl⟩ | ⟨_, _, rfl⟩ := (issue_occurs e s t h).clock_cases
  · rwa [hc]
  · exact hcnt
  · exact countTick_cnt_le hv hcnt

theorem runEvents_cnt_le (es : List Event) (s t : State) (hcnt : s.cnt.toNat ≤ s.cfg.period - 1)
    (h : runEvents es s = .next t) : t.cnt.toNat ≤ t.cfg.period - 1 := by
  induction es generalizing s with
  | nil => cases h; exact hcnt
  | cons e es ih =>
    obtain ⟨u, hu, hrun⟩ := (runEvents_cons_next e es s t).1 h
    exact ih u (issue_cnt_le hcnt hu) hrun

/-! ### The counted ticks -/

/-- The ticks a state accounts for modulo `2^32`, a pending overflow counted in wherever `CNT` stands: what MICROS
converts in the first two rows of R80, and one period more than that in the third. -/
def countedTicks (s : State) : Word :=
  (if s.uif then s.ovf + 1 else s.ovf) * BitVec.ofNat 32 s.cfg.period + s.cnt.zeroExtend 32

/-- Off the third row of R80 MICROS is the counted ticks in microseconds. -/
theorem microsValue_eq_countedTicks {s : State} (hcnt : s.cnt.toNat ≤ s.cfg.period - 1)
    (hoff : s.atBoundary = false) :
    microsValue s = countedTicks s * BitVec.ofNat 32 s.cfg.usPerTick := by
  have hcond : s.uif = true ∧ s.cnt.toNat < s.cfg.period - 1 ↔ s.uif = true := by
    refine and_iff_left_of_imp fun huif => ?_
    have hne : s.cnt.toNat ≠ s.cfg.period - 1 := by
      simpa [State.atBoundary, State.atPeriodEnd, huif] using hoff
    omega
  have hm : compensated s.cfg.period (snapshot s) = if s.uif then s.ovf + 1 else s.ovf := by
    rw [compensated_eq]
    exact if_congr hcond rfl rfl
  rw [microsValue, toMicros, hm, countedTicks, snapshot_ticks]

theorem countedTicks_congr {s t : State} (hcfg : t.cfg = s.cfg) (hovf : t.ovf = s.ovf) (hcnt : t.cnt = s.cnt)
    (huif : t.uif = s.uif) : countedTicks t = countedTicks s := by
  simp only [countedTicks, hcfg, hovf, hcnt, huif]

@[simp] theorem countedTicks_setResp (s : State) (r : Option Response) :
    countedTicks (s.setResp r) = countedTicks s := rfl

/-- TICK moves the pending overflow into `OVF`. -/
theorem countedTicks_serviceOverflow {s : State} (huif : s.uif = true) :
    countedTicks (serviceOverflow s) = countedTicks s := by
  simp [countedTicks, huif]

theorem zeroExtend_add_one (c : Byte) : c.zeroExtend 32 + 1 = BitVec.ofNat 32 (c.toNat + 1) := by
  rw [BitVec.ofNat_add, BitVec.ofNat_toNat]
  rfl

theorem countTick_cnt_zeroExtend {s : State} (hv : s.cfg.Valid) (hcnt : s.cnt.toNat ≤ s.cfg.period - 1)
    (hend : s.atPeriodEnd = false) : (countTick s).cnt.zeroExtend 32 = s.cnt.zeroExtend 32 + 1 := by
  rw [zeroExtend_add_one, ← countTick_cnt_toNat hv hcnt hend, BitVec.ofNat_toNat]

/-- At the end of the period the counter stands for one tick less than a period. -/
theorem zeroExtend_add_one_of_atPeriodEnd {s : State} (hv : s.cfg.Valid) (hend : s.atPeriodEnd = true) :
    s.cnt.zeroExtend 32 + 1 = BitVec.ofNat 32 s.cfg.period := by
  obtain ⟨_, ⟨hmin, _⟩, _⟩ := hv
  rw [zeroExtend_add_one, (atPeriodEnd_iff s).1 hend, Nat.sub_add_cancel hmin]

/-- CNT counts one tick; when it wraps over a pending overflow it loses that overflow's period (R97). -/
theorem countedTicks_countTick {s : State} (hv : s.cfg.Valid) (hcnt : s.cnt.toNat ≤ s.cfg.period - 1) :
    countedTicks (countTick s) + (if s.wouldMissOverflow then BitVec.ofNat 32 s.cfg.period else 0) =
      countedTicks s + 1 := by
  simp only [countedTicks, countTick_uif, countTick_ovf, countTick_cfg, State.wouldMissOverflow]
  obtain hend | hend := Bool.eq_false_or_eq_true s.atPeriodEnd
  · have hzero : (countTick s).cnt.zeroExtend 32 = (0 : Word) := by simp [hend]
    simp only [hzero, hend, ← zeroExtend_add_one_of_atPeriodEnd hv hend, Bool.or_true, Bool.and_true, if_true]
    cases s.uif with
    | false => simp only [Bool.false_eq_true, if_false]; ring
    | true => simp only [if_true]; ring
  · simp only [countTick_cnt_zeroExtend hv hcnt hend, hend, Bool.or_false, Bool.and_false, Bool.false_eq_true,
      if_false]
    ring

/-! ### Runs -/

theorem cntCount_cons (e : Event) (es : List Event) :
    cntCount (e :: es) = cntCount es + if e = cntEvent then 1 else 0 := by
  simp [cntCount, List.count_cons]

/-- One event: CNT counts, nothing else does, and only a CNT can miss an overflow. -/
theorem issue_countedTicks {e : Event} {s t : State} (hcnt : s.cnt.toNat ≤ s.cfg.period - 1)
    (h : issue e s = .next t) :
    countedTicks t + BitVec.ofNat 32 (s.cfg.period * if e = cntEvent ∧ s.wouldMissOverflow = true then 1 else 0) =
      countedTicks s + BitVec.ofNat 32 (if e = cntEvent then 1 else 0) := by
  have hv : s.cfg.Valid := ((issue_next_iff e s t).1 h).1
  obtain ⟨hne, hcfg, hovf, hc, huif⟩ | ⟨rfl, hg, rfl⟩ | ⟨rfl, _, rfl⟩ := (issue_occurs e s t h).clock_cases
  · simp [hne, countedTicks_congr hcfg hovf hc huif]
  · obtain ⟨huif, _⟩ := (tickEnabled_iff s).1 hg
    simp [tickEvent_ne_cntEvent, countedTicks_serviceOverflow huif]
  · have htick := countedTicks_countTick hv hcnt
    cases hmiss : s.wouldMissOverflow <;> simpa [hmiss] using htick

/-- Accounting of a run: its end accounts for every CNT, less one period for each missed overflow, modulo `2^32`. -/
theorem runEvents_countedTicks (es : List Event) (s t : State) (hcnt : s.cnt.toNat ≤ s.cfg.period - 1)
    (h : runEvents es s = .next t) :
    countedTicks t + BitVec.ofNat 32 (s.cfg.period * missedCount es s) =
      countedTicks s + BitVec.ofNat 32 (cntCount es) := by
  induction es generalizing s with
  | nil => cases h; rfl
  | cons e es ih =>
    obtain ⟨u, hu, hrun⟩ := (runEvents_cons_next e es s t).1 h
    have hrest := ih u (issue_cnt_le hcnt hu) hrun
    have hfirst := issue_countedTicks hcnt hu
    rw [issue_cfg hu] at hrest
    rw [missedCount_cons e es s u hu, cntCount_cons, Nat.mul_add, BitVec.ofNat_add, BitVec.ofNat_add]
    linear_combination hrest + hfirst

/-- Settles O21: off the third row at both ends MICROS is the counted ticks in microseconds, and with nothing missed
these advance by one for each CNT. -/
theorem microsIsMonotoneOnRunsThatKeepTime : Obligations.MicrosIsMonotoneOnRunsThatKeepTime := by
  intro es s t _ hcnt hs ⟨hrun, hmissed, ht⟩
  have hticks : countedTicks t = countedTicks s + BitVec.ofNat 32 (cntCount es) := by
    simpa [hmissed] using runEvents_countedTicks es s t hcnt hrun
  have hmicros : microsValue t = microsValue s + BitVec.ofNat 32 (s.cfg.usPerTick * cntCount es) := by
    rw [microsValue_eq_countedTicks hcnt hs,
      microsValue_eq_countedTicks (runEvents_cnt_le es s t hcnt hrun) ht, runEvents_cfg es s t hrun, hticks,
      BitVec.ofNat_mul]
    ring
  rw [hmicros, elapsed_add]

end Sys2Proof.Machine
end

section
/-! PROOFS. The state (spec 10_state.md R19 to R27). First what each agent and each operation can write, said once per
register as an inversion of `Occurs`; then step 3 of TICK as division with remainder, which gives the bounds of R67 and
the closed form of R69; then the invariants of R23, each kept for its own reason. -/

namespace Sys2Proof.Machine

/-! ### What each agent writes -/

/-- No operation writes the constants, the latency or the schedule (R20). -/
theorem Occurs.keeps_parameters {e : Event} {s t : State} (h : Occurs s e t) :
    t.cfg = s.cfg ∧ t.latency = s.latency ∧ t.schedule = s.schedule := by
  cases h with
  | nop | millis | micros | tstart | tstop | idis | ien | tick | illegal => exact ⟨rfl, rfl, rfl⟩
  | cnt => simp

/-- The host writes none of the data registers, the counter and the pending flag (R121). -/
theorem Occurs.host_frame {e : Event} {s t : State} (h : Occurs s e t) (hsrc : e.source = .host) :
    t.ms = s.ms ∧ t.fr = s.fr ∧ t.ovf = s.ovf ∧ t.cnt = s.cnt ∧ t.uif = s.uif := by
  cases h with
  | nop | millis | micros | tstart | tstop | idis | ien | illegal => exact ⟨rfl, rfl, rfl, rfl, rfl⟩
  | tick | cnt => cases hsrc

/-- The timer issues CNT and nothing else. -/
theorem Occurs.of_timer {e : Event} {s t : State} (h : Occurs s e t) (hsrc : e.source = .timer) :
    s.cntEnabled = true ∧ t = (countTick s).setResp none := by
  cases h with
  | nop | millis | micros | tstart | tstop | idis | ien | illegal | tick => cases hsrc
  | cnt hg => exact ⟨hg, rfl⟩

/-- The handler issues TICK and nothing else. -/
theorem Occurs.of_handler {e : Event} {s t : State} (h : Occurs s e t) (hsrc : e.source = .handler) :
    s.tickEnabled = true ∧ t = (serviceOverflow s).setResp none := by
  cases h with
  | nop | millis | micros | tstart | tstop | idis | ien | illegal | cnt => cases hsrc
  | tick hg => exact ⟨hg, rfl⟩

/-- Settles O33: the parameters are written by nobody, and each agent's frame is the frame of what it issues. -/
theorem agentsWriteOnlyTheirRegisters : Obligations.AgentsWriteOnlyTheirRegisters := by
  intro e s t h
  have hocc := issue_occurs e s t h
  obtain ⟨hcfg, hlat, hsched⟩ := hocc.keeps_parameters
  refine ⟨hcfg, hlat, hsched, hocc.host_frame, fun hsrc => ?timer, fun hsrc => ?handler⟩
  case timer =>
    obtain ⟨_, rfl⟩ := hocc.of_timer hsrc
    simp
  case handler =>
    obtain ⟨_, rfl⟩ := hocc.of_handler hsrc
    simp

/-! ### What changes each flag -/

/-- `UIF` is set by a wrapping CNT and cleared by TICK. -/
theorem Occurs.uif_cases {e : Event} {s t : State} (h : Occurs s e t) :
    t.uif = s.uif ∨ ((e = cntEvent ∧ s.cnt.toNat = s.cfg.period - 1) ∧ t.uif = true) ∨
      (e = tickEvent ∧ t.uif = false) := by
  obtain ⟨_, _, _, _, huif⟩ | ⟨rfl, _, rfl⟩ | ⟨rfl, _, rfl⟩ := h.clock_cases
  · exact .inl huif
  · exact .inr (.inr ⟨rfl, rfl⟩)
  · cases hend : s.atPeriodEnd with
    | false => exact .inl (by simp [hend])
    | true => exact .inr (.inl ⟨⟨rfl, (atPeriodEnd_iff s).1 hend⟩, by simp [hend]⟩)

/-- `CEN` is set by TSTART and cleared by TSTOP. -/
theorem Occurs.cen_cases {e : Event} {s t : State} (h : Occurs s e t) :
    t.cen = s.cen ∨ (e = Instr.event .tstart ∧ t.cen = true) ∨ (e = Instr.event .tstop ∧ t.cen = false) := by
  cases h with
  | nop | millis | micros | idis | ien | illegal | tick => exact .inl rfl
  | cnt => exact .inl (by simp)
  | tstart => exact .inr (.inl ⟨rfl, rfl⟩)
  | tstop => exact .inr (.inr ⟨rfl, rfl⟩)

/-- `UIE` is set by TSTART and cleared by nothing. -/
theorem Occurs.uie_cases {e : Event} {s t : State} (h : Occurs s e t) :
    t.uie = s.uie ∨ (e = Instr.event .tstart ∧ t.uie = true) := by
  cases h with
  | nop | millis | micros | tstop | idis | ien | illegal | tick => exact .inl rfl
  | cnt => exact .inl (by simp)
  | tstart => exact .inr ⟨rfl, rfl⟩

/-- `GIE` is set by IEN and cleared by IDIS. -/
theorem Occurs.gie_cases {e : Event} {s t : State} (h : Occurs s e t) :
    t.gie = s.gie ∨ (e = Instr.event .ien ∧ t.gie = true) ∨ (e = Instr.event .idis ∧ t.gie = false) := by
  cases h with
  | nop | millis | micros | tstart | tstop | illegal | tick => exact .inl rfl
  | cnt => exact .inl (by simp)
  | ien => exact .inr (.inl ⟨rfl, rfl⟩)
  | idis => exact .inr (.inr ⟨rfl, rfl⟩)

/-- A flag that is kept, set in one case or cleared in another rises only in the one and falls only in the other. -/
theorem flag_rises_and_falls {before after : Bool} {setBy clearedBy : Prop}
    (h : after = before ∨ (setBy ∧ after = true) ∨ (clearedBy ∧ after = false)) :
    (before = false → after = true → setBy) ∧ (before = true → after = false → clearedBy) := by
  obtain rfl | ⟨hset, rfl⟩ | ⟨hclear, rfl⟩ := h
  · exact ⟨fun hf ht => absurd (hf.symm.trans ht) Bool.false_ne_true,
      fun ht hf => absurd (hf.symm.trans ht) Bool.false_ne_true⟩
  · exact ⟨fun _ _ => hset, fun _ hf => nomatch hf⟩
  · exact ⟨fun _ ht => (nomatch ht), fun _ _ => hclear⟩

/-- Settles O34, flag by flag. -/
theorem flagsChangeOnlyByTheirOperations : Obligations.FlagsChangeOnlyByTheirOperations := by
  intro e s t h
  have hocc := issue_occurs e s t h
  obtain ⟨huifSet, huifClear⟩ := flag_rises_and_falls hocc.uif_cases
  obtain ⟨hcenSet, hcenClear⟩ := flag_rises_and_falls hocc.cen_cases
  obtain ⟨huieSet, huieClear⟩ :=
    flag_rises_and_falls (clearedBy := False) (hocc.uie_cases.imp_right .inl)
  obtain ⟨hgieSet, hgieClear⟩ := flag_rises_and_falls hocc.gie_cases
  exact ⟨huifSet, huifClear, hcenSet, hcenClear, huieSet, fun hs => by simpa using huieClear hs, hgieSet,
    hgieClear⟩

/-! ### What the host is answered -/

/-- From the host a code is one of the host's operations, or illegal. -/
theorem decodeHost_cases (code : OpCode) :
    (∃ i : Instr, i.issuer = .host ∧ decodeHost code = .ok i) ∨ decodeHost code = .error (.illegalOp code) := by
  unfold decodeHost
  split
  case h_8 => exact .inr rfl
  all_goals exact .inl ⟨_, rfl, rfl⟩

/-- The value a host operation returns: `MS` for MILLIS, the microseconds for MICROS, 0 for the others (R44). -/
def hostValue (s : State) : Instr → Word
  | .millis => s.ms
  | .micros => microsValue s
  | _ => 0

/-- The response the host gets to a code (R43, R44). -/
def hostResponse (code : OpCode) (s : State) : Response :=
  match decodeHost code with
  | .ok i => { rdata := hostValue s i, rerr := false }
  | .error _ => { rdata := 0, rerr := true }

/-- Every operation of the host completes and answers its value. -/
theorem exec_host {i : Instr} (hi : i.issuer = .host) (s : State) :
    ∃ t, exec i s = .next t ∧ t.resp = some { rdata := hostValue s i, rerr := false } := by
  cases i with
  | nop | millis | micros | tstart | tstop | idis | ien => exact ⟨_, rfl, rfl⟩
  | tick | cnt => cases hi

/-- Whatever the host presents goes on and is answered. -/
theorem perform_host (code : OpCode) (s : State) :
    ∃ t, perform { source := .host, code := code } s = .next t ∧ t.resp = some (hostResponse code s) := by
  unfold perform decode hostResponse
  obtain ⟨i, hi, hdec⟩ | hdec := decodeHost_cases code
  · simpa only [hdec] using exec_host hi s
  · simp only [hdec]
    exact ⟨_, rfl, rfl⟩

/-- Under latency `any` whatever the host presents is issued and answered. -/
theorem issue_host (code : OpCode) {s : State} (hv : s.cfg.Valid) (hl : s.latency = .any) :
    ∃ t, issue { source := .host, code := code } s = .next t ∧ t.resp = some (hostResponse code s) := by
  obtain ⟨t, ht, hresp⟩ := perform_host code s
  exact ⟨t, (issue_next_iff _ s t).2 ⟨hv, admits_any _ s hl, ht⟩, hresp⟩

/-- The response is read from `MS`, `OVF`, `CNT`, `UIF` and the constants alone. -/
theorem hostResponse_congr (code : OpCode) {s t : State} (hcfg : t.cfg = s.cfg) (hms : t.ms = s.ms)
    (hovf : t.ovf = s.ovf) (hcnt : t.cnt = s.cnt) (huif : t.uif = s.uif) :
    hostResponse code t = hostResponse code s := by
  have hval : ∀ i, hostValue t i = hostValue s i := fun i => by
    cases i with
    | millis => exact hms
    | micros => exact microsValue_congr s t hcfg hovf hcnt huif
    | nop | tstart | tstop | idis | ien | tick | cnt => rfl
  simp only [hostResponse, hval]

/-- Settles O35: neither state is refused, and the response reads none of the four registers. -/
theorem hostSeesNoHiddenState : Obligations.HostSeesNoHiddenState := by
  intro s code f a b c hv hl
  obtain ⟨t, ht, hrt⟩ := issue_host code hv hl
  obtain ⟨u, hu, hru⟩ := issue_host code (s := { s with fr := f, cen := a, uie := b, gie := c }) hv hl
  refine ⟨t, u, ht, hu, ?_⟩
  rw [hrt, hru]
  exact congrArg some (hostResponse_congr code rfl rfl rfl rfl rfl)

/-! ### The accumulator as division with remainder -/

/-- Two summands below `m` reach `m` at most once. -/
theorem add_divMod_of_le {a b m : Nat} (ha : a < m) (hb : b < m) (hge : m ≤ a + b) :
    (a + b) % m = a + b - m ∧ (a + b) / m = 1 := by
  rw [Nat.mod_eq_sub_mod hge, Nat.mod_eq_of_lt (by omega)]
  exact ⟨rfl, Nat.div_eq_of_lt_le (by omega) (by omega)⟩

/-- Step 3 of TICK divides the exact sum by the ceiling: the remainder stays, the quotient is the carry (R67, R68). -/
theorem accumulateFraction_divMod {c : Cfg} {f : Nat} (hinc : c.fractInc < c.fractMax) (hf : f < c.fractMax) :
    (accumulateFraction c f).1 = (f + c.fractInc) % c.fractMax ∧
    (accumulateFraction c f).2.toNat = (f + c.fractInc) / c.fractMax := by
  obtain ⟨heq, hzero⟩ | ⟨heq, _, hge⟩ | ⟨heq, _, hlt⟩ := accumulateFraction_cases c f <;> rw [heq]
  · rw [hzero, Nat.add_zero]
    exact ⟨(Nat.mod_eq_of_lt hf).symm, (Nat.div_eq_of_lt hf).symm⟩
  · obtain ⟨hmod, hdiv⟩ := add_divMod_of_le hf hinc hge
    exact ⟨hmod.symm, hdiv.symm⟩
  · exact ⟨(Nat.mod_eq_of_lt hlt).symm, (Nat.div_eq_of_lt hlt).symm⟩

theorem advanceMillis_eq (c : Cfg) (ms : Word) (carry : Bool) :
    advanceMillis c ms carry = ms + BitVec.ofNat 32 (c.millisInc + carry.toNat) := by
  cases carry with
  | false => rfl
  | true => rw [BitVec.ofNat_add, ← BitVec.add_assoc]; rfl

/-- TICK keeps in `FR` the remainder, which fits the register as the ceiling does. -/
theorem serviceOverflow_fr_toNat {s : State} (hinc : s.cfg.fractInc < s.cfg.fractMax)
    (hmax : s.cfg.fractMax ≤ 256) (hfr : s.fr.toNat < s.cfg.fractMax) :
    (serviceOverflow s).fr.toNat = (s.fr.toNat + s.cfg.fractInc) % s.cfg.fractMax := by
  have hlt : (s.fr.toNat + s.cfg.fractInc) % s.cfg.fractMax < s.cfg.fractMax := Nat.mod_lt _ (by omega)
  rw [serviceOverflow_fr, (accumulateFraction_divMod hinc hfr).1, BitVec.toNat_ofNat, Nat.mod_eq_of_lt (by omega)]

/-- TICK adds to `MS` the whole milliseconds and the quotient. -/
theorem serviceOverflow_ms_eq {s : State} (hinc : s.cfg.fractInc < s.cfg.fractMax)
    (hfr : s.fr.toNat < s.cfg.fractMax) :
    (serviceOverflow s).ms =
      s.ms + BitVec.ofNat 32 (s.cfg.millisInc + (s.fr.toNat + s.cfg.fractInc) / s.cfg.fractMax) := by
  rw [serviceOverflow_ms, advanceMillis_eq, (accumulateFraction_divMod hinc hfr).2]

/-- Settles O26: of two summands below the ceiling the quotient is 0 or 1. -/
theorem fractionStaysBelowTheCeiling : Obligations.FractionStaysBelowTheCeiling := by
  intro s t hinc hmax hfr h
  obtain ⟨_, rfl⟩ := (execTick_next_iff s t).1 h
  rw [State.setResp_fr, State.setResp_ms, serviceOverflow_fr_toNat hinc hmax hfr, serviceOverflow_ms_eq hinc hfr]
  refine ⟨Nat.mod_lt _ (by omega), ?_⟩
  split
  · rename_i hge
    obtain ⟨hmod, hdiv⟩ := add_divMod_of_le hfr hinc hge
    rw [hmod, hdiv]
    exact ⟨Nat.sub_add_cancel hge, rfl⟩
  · rename_i hlt
    rw [Nat.mod_eq_of_lt (by omega), Nat.div_eq_of_lt (by omega)]
    exact ⟨rfl, rfl⟩

/-! ### The accumulator over a run -/

/-- For the data registers there are two kinds of event: TICK, and those that leave all of them. -/
theorem Occurs.data_cases {e : Event} {s t : State} (h : Occurs s e t) :
    (e ≠ tickEvent ∧ t.ms = s.ms ∧ t.fr = s.fr ∧ t.ovf = s.ovf) ∨
    (e = tickEvent ∧ t = (serviceOverflow s).setResp none) := by
  cases h with
  | nop | millis | micros | tstart | tstop | idis | ien => exact .inl ⟨by decide, rfl, rfl, rfl⟩
  | illegal => exact .inl ⟨fun he => (nomatch congrArg Event.source he), rfl, rfl, rfl⟩
  | cnt => exact .inl ⟨tickEvent_ne_cntEvent.symm, by simp⟩
  | tick => exact .inr ⟨rfl, rfl⟩

theorem tickCount_cons_tick (es : List Event) : tickCount (tickEvent :: es) = tickCount es + 1 :=
  List.count_cons_self

theorem tickCount_cons_of_ne {e : Event} (he : e ≠ tickEvent) (es : List Event) :
    tickCount (e :: es) = tickCount es :=
  List.count_cons_of_ne he

theorem issue_fr_lt {e : Event} {s t : State} (hfr : s.fr.toNat < s.cfg.fractMax) (h : issue e s = .next t) :
    t.fr.toNat < t.cfg.fractMax := by
  obtain ⟨_, _, ⟨_, hmax⟩, hinc, _⟩ := ((issue_next_iff e s t).1 h).1
  rw [issue_cfg h]
  obtain ⟨_, _, hsame, _⟩ | ⟨_, rfl⟩ := (issue_occurs e s t h).data_cases
  · rwa [hsame]
  · rw [State.setResp_fr, serviceOverflow_fr_toNat hinc hmax hfr]
    exact Nat.mod_lt _ (by omega)

/-- Dividing in two stages, the first remainder carried into the second, gives the quotient of the whole. -/
theorem div_add_mod_add_div (a b m : Nat) (hm : 0 < m) : a / m + (a % m + b) / m = (a + b) / m := by
  have hsplit : a + b = a % m + b + m * (a / m) := by have := Nat.mod_add_div a m; omega
  rw [hsplit, Nat.add_mul_div_left _ _ hm, Nat.add_comm]

/-- Settles O27, by induction on the run: a TICK is one more stage of the division. -/
theorem closedFormOverManyTicks : Obligations.ClosedFormOverManyTicks := by
  intro es
  induction es with
  | nil =>
    intro s t _ hfr h
    cases h
    simp [tickCount, Nat.div_eq_of_lt hfr, Nat.mod_eq_of_lt hfr]
  | cons e es ih =>
    intro s t hv hfr h
    obtain ⟨u, hu, hrun⟩ := (runEvents_cons_next e es s t).1 h
    have hcfg := issue_cfg hu
    obtain ⟨hms, hrem, hovf⟩ := ih u t (hcfg ▸ hv) (issue_fr_lt hfr hu) hrun
    rw [hcfg] at hms hrem
    obtain ⟨hne, hums, hufr, huovf⟩ | ⟨rfl, rfl⟩ := (issue_occurs e s u hu).data_cases
    · rw [hums, hufr] at hms
      rw [hufr] at hrem
      rw [huovf] at hovf
      rw [tickCount_cons_of_ne hne]
      exact ⟨hms, hrem, hovf⟩
    · obtain ⟨_, _, ⟨hpos, hmax⟩, hinc, _⟩ := hv
      have hsum : s.fr.toNat + (tickCount es + 1) * s.cfg.fractInc =
          s.fr.toNat + s.cfg.fractInc + tickCount es * s.cfg.fractInc := by ring
      rw [State.setResp_fr, serviceOverflow_fr_toNat hinc hmax hfr] at hms hrem
      rw [State.setResp_ms, serviceOverflow_ms_eq hinc hfr] at hms
      rw [State.setResp_ovf, serviceOverflow_ovf] at hovf
      rw [tickCount_cons_tick, hsum]
      refine ⟨?ms, ?fr, ?ovf⟩
      case ms =>
        have hstage := div_add_mod_add_div (s.fr.toNat + s.cfg.fractInc) (tickCount es * s.cfg.fractInc) _ hpos
        rw [hms, ← hstage, BitVec.add_assoc, ← BitVec.ofNat_add]
        congr 2
        ring
      case fr => rw [hrem, Nat.mod_add_mod]
      case ovf =>
        rw [hovf, Nat.add_comm, BitVec.ofNat_add, BitVec.add_assoc]
        rfl

/-! ### The invariants -/

/-- What (I5) of R23 says of a block that TSTART has not reached: nothing has counted and the timer is off. -/
def State.Untouched (s : State) : Prop :=
  s.ms = 0 ∧ s.fr = 0 ∧ s.ovf = 0 ∧ s.cnt = 0 ∧ s.uif = false ∧ s.cen = false

theorem resetWith_untouched (c : Cfg) (l : HandlerLatency) : (State.resetWith c l).Untouched :=
  ⟨rfl, rfl, rfl, rfl, rfl, rfl⟩

/-- With `UIE = 0` TICK is disabled, and CNT too while the block is untouched; of the host's operations only TSTART
touches the block, and that sets `UIE`. -/
theorem Occurs.keeps_untouched {e : Event} {s t : State} (h : Occurs s e t)
    (hs : s.uie = false → s.Untouched) (ht : t.uie = false) : t.Untouched := by
  cases h with
  | nop | millis | micros | idis | ien | illegal => exact hs ht
  | tstart => cases ht
  | tstop =>
    obtain ⟨hms, hfr, hovf, hcnt, huif, _⟩ := hs ht
    exact ⟨hms, hfr, hovf, hcnt, huif, rfl⟩
  | tick hg =>
    obtain ⟨_, huie, _⟩ := (tickEnabled_iff s).1 hg
    exact absurd (ht.symm.trans huie) Bool.false_ne_true
  | cnt hg =>
    have hon : s.cen = true := (cntEnabled_iff s).1 hg
    obtain ⟨_, _, _, _, _, hoff⟩ := hs (by simpa using ht)
    exact absurd (hoff.symm.trans hon) Bool.false_ne_true

/-- One event keeps the invariants of R23. -/
theorem issue_inv {e : Event} {s t : State} (hs : s.Inv) (h : issue e s = .next t) : t.Inv := by
  obtain ⟨hv, hfr, hcnt, huntouched⟩ := hs
  have hvt : t.cfg.Valid := issue_cfg h ▸ hv
  exact ⟨hvt, issue_fr_lt hfr h, issue_cnt_le hcnt h, (issue_occurs e s t h).keeps_untouched huntouched⟩

/-- Settles O38: a step issues the head of the schedule, and the invariants do not speak of the schedule. -/
theorem stepKeepsTheInvariants : Obligations.StepKeepsTheInvariants := by
  intro s t hs h
  obtain ⟨e, rest, _, hissue⟩ := step_next s t h
  have hrest : (s.setSchedule rest).Inv := hs
  exact issue_inv hrest hissue

/-- The reset state of a block meets the invariants, whatever its configuration and latency. -/
theorem resetWith_inv {c : Cfg} (l : HandlerLatency) (hc : c.Valid) : (State.resetWith c l).Inv := by
  have hpos : 0 < c.fractMax := by
    obtain ⟨_, _, ⟨hmin, _⟩, _⟩ := hc
    exact hmin
  exact ⟨hc, hpos, Nat.zero_le _, fun _ => resetWith_untouched c l⟩

theorem source16MHz_valid : Cfg.source16MHz.Valid := by decide

/-- Settles O37. -/
theorem resetMeetsTheInvariants : Obligations.ResetMeetsTheInvariants :=
  ⟨fun _ l hc => resetWith_inv l hc, resetWith_inv .any source16MHz_valid⟩

/-- Settles O36: `State.reset` is one of the reset states. -/
theorem resetLeavesEveryRegisterZero : Obligations.ResetLeavesEveryRegisterZero := by
  refine ⟨fun c l => ?every, ?fixed⟩
  case every => simp
  case fixed => simp [State.reset]

end Sys2Proof.Machine
end

section
/-! PROOFS. Encoding (spec 30_encoding.md R40 to R48). First the operation map and what it makes of `perform`, `issue` and
`step`; then the pseudo-operations `CNT*n` and `WRAP`, whose closed form is one state function that ticks compose; then
the textual form of traces, where reading undoes writing at each of the reader's stages: tokens, statements, sections. -/

namespace Sys2Proof.Machine

/-! ### The operation map -/

/-- What an operation's own agent presents decodes to it. -/
theorem decode_encode (i : Instr) : decode i.issuer (encode i) = .ok i := by
  cases i <;> rfl

/-- The map gives an operation to one agent under one code (R41). -/
theorem eq_of_decode_ok {source : Source} {code : OpCode} {i : Instr} (h : decode source code = .ok i) :
    source = i.issuer ∧ code = encode i := by
  cases source with
  | host =>
    unfold decode decodeHost at h
    dsimp only at h
    split at h <;> cases h <;> exact ⟨rfl, rfl⟩
  | timer | handler =>
    unfold decode at h
    dsimp only at h
    split at h
    · next hcode => cases h; exact ⟨rfl, hcode⟩
    · cases h

/-- The nine codes that are illegal from the host (R43), checked over the sixteen codes. -/
theorem decode_host_illegal_iff (code : OpCode) :
    decode .host code = .error (.illegalOp code) ↔
      code ∈ [0x3#4, 0x8#4, 0x9#4, 0xA#4, 0xB#4, 0xC#4, 0xD#4, 0xE#4, 0xF#4] := by
  revert code
  decide

/-- Settles O1: the two directions of the map, and its gaps on the host port. -/
theorem decodeIsTheOperationMap : Obligations.DecodeIsTheOperationMap :=
  ⟨decode_encode, fun _ _ _ h => eq_of_decode_ok h, decode_host_illegal_iff⟩

/-! ### From the code to its meaning -/

theorem perform_of_decode_ok {e : Event} {i : Instr} (h : decode e.source e.code = .ok i) (s : State) :
    perform e s = exec i s := by
  unfold perform
  rw [h]

theorem perform_of_illegal {e : Event} {code : OpCode} (h : decode e.source e.code = .error (.illegalOp code))
    (s : State) : perform e s = raiseIllegalOp s := by
  unfold perform
  rw [h]

theorem issue_of_admits {e : Event} {s : State} (hv : s.cfg.Valid) (ha : admits e s = true) :
    issue e s = perform e s := by
  unfold issue
  rw [if_pos hv, if_pos ha]

theorem step_cons {s : State} {e : Event} {rest : List Event} (h : s.schedule = e :: rest) :
    step s = issue e (s.setSchedule rest) := by
  unfold step
  rw [fetch_cons s e rest h]

theorem step_nil {s : State} (h : s.schedule = []) : step s = .refused .noOperation := by
  unfold step
  rw [fetch_nil s h]

/-- The latency turns away only what is presented before an enabled TICK under `immediate` (R115). -/
theorem admits_iff (e : Event) (s : State) :
    admits e s = true ↔ s.latency = .any ∨ s.tickEnabled = false ∨ e = tickEvent := by
  unfold admits
  cases s.latency <;> simp

/-- Settles O3: an illegal code raises `IllegalOp`, and any other is an operation of the host, which completes. -/
theorem hostPortAnswersEveryCode : Obligations.HostPortAnswersEveryCode := by
  intro s code hv ha
  rw [issue_of_admits hv ha]
  refine ⟨fun hmem => ?illegal, fun hmem => ?defined⟩
  case illegal => exact perform_of_illegal ((decode_host_illegal_iff code).2 hmem) s
  case defined =>
    obtain ⟨i, hi, hdec⟩ | hdec := decodeHost_cases code
    · obtain ⟨t, ht, hresp⟩ := exec_host hi s
      obtain ⟨_, hcode⟩ := eq_of_decode_ok (source := .host) hdec
      have hperform := (perform_of_decode_ok (e := ⟨.host, code⟩) hdec s).trans ht
      exact ⟨i, hostValue s i, t, hdec, hcode.symm, hperform, ht, hresp⟩
    · exact absurd ((decode_host_illegal_iff code).1 hdec) hmem

/-- Settles O49: the head of the schedule is issued, and only TICK decodes to TICK. -/
theorem stepRunsTheDecodedOperation : Obligations.StepRunsTheDecodedOperation := by
  refine ⟨fun s => step_nil, fun s e rest i hv hs hdec hlat => ?_⟩
  have htick : i = .tick → e = tickEvent := by
    rintro rfl
    obtain ⟨hsource, hcode⟩ := eq_of_decode_ok hdec
    exact (Event.mk.injEq ..).mpr ⟨hsource, hcode⟩
  have ha : admits e (s.setSchedule rest) = true :=
    (admits_iff e _).2 (hlat.imp_right (Or.imp_right htick))
  have hv' : (s.setSchedule rest).cfg.Valid := hv
  rw [step_cons hs, issue_of_admits hv' ha, perform_of_decode_ok hdec]
  rfl

/-! ### The guards of the two events -/

theorem exec_tick (s : State) : exec .tick s = execTick s := rfl

theorem exec_cnt (s : State) : exec .cnt s = execCnt s := rfl

theorem execTick_of_not_enabled {s : State} (h : ¬ s.tickEnabled = true) :
    execTick s = .refused .tickNotEnabled := if_neg h

theorem execCnt_of_not_enabled {s : State} (h : ¬ s.cntEnabled = true) :
    execCnt s = .refused .counterStopped := if_neg h

/-- Settles O28: each event goes on exactly when its guard holds, and is refused by its name otherwise. -/
theorem eventsStepExactlyUnderTheirGuards : Obligations.EventsStepExactlyUnderTheirGuards := by
  intro s
  rw [exec_tick, exec_cnt, ← tickEnabled_iff]
  refine ⟨?tickSteps, ?cntSteps, execTick_of_not_enabled, fun hoff => execCnt_of_not_enabled ?cntOff⟩
  case tickSteps => simp only [execTick_next_iff, exists_and_left, exists_eq, and_true]
  case cntSteps => simp only [execCnt_next_iff, exists_and_left, exists_eq, and_true, cntEnabled_iff]
  case cntOff => simpa [cntEnabled_iff] using hoff

/-! ### Any number of ticks -/

theorem one_le_period_of_valid {c : Cfg} (hc : c.Valid) : 1 ≤ c.period := by
  obtain ⟨_, ⟨hmin, _⟩, _⟩ := hc
  exact hmin

/-- The state some ticks later, in closed form (R98): the ticks modulo the period in `CNT`, and `UIF` set when they
complete a period. -/
def afterTicks (n : Nat) (s : State) : State :=
  { s with
    cnt := BitVec.ofNat 8 ((s.cnt.toNat + n) % s.cfg.period)
    uif := s.uif || decide (s.cfg.period ≤ s.cnt.toNat + n)
    resp := none }

theorem afterTicks_cfg (n : Nat) (s : State) : (afterTicks n s).cfg = s.cfg := rfl

theorem afterTicks_cnt (n : Nat) (s : State) :
    (afterTicks n s).cnt = BitVec.ofNat 8 ((s.cnt.toNat + n) % s.cfg.period) := rfl

theorem afterTicks_uif_iff (n : Nat) (s : State) :
    (afterTicks n s).uif = true ↔ s.uif = true ∨ s.cfg.period ≤ s.cnt.toNat + n := by
  simp [afterTicks]

/-- One CNT is one tick of the closed form. -/
theorem countTick_setResp {s : State} (hv : s.cfg.Valid) (hcnt : s.cnt.toNat ≤ s.cfg.period - 1) :
    (countTick s).setResp none = afterTicks 1 s := by
  have hmin := one_le_period_of_valid hv
  by_cases hend : s.atPeriodEnd = true
  · have hfull : s.cnt.toNat + 1 = s.cfg.period := by
      have := (atPeriodEnd_iff s).1 hend
      omega
    simp [countTick, hend, afterTicks, hfull, State.setCnt, State.setUif, State.setResp]
  · have hlt : s.cnt.toNat + 1 < s.cfg.period := by
      have := mt (atPeriodEnd_iff s).2 hend
      omega
    have hbyte : BitVec.ofNat 8 (s.cnt.toNat + 1) = s.cnt + 1 := by
      rw [BitVec.ofNat_add, BitVec.ofNat_toNat, BitVec.setWidth_eq]
      rfl
    simp [countTick, hend, afterTicks, Nat.mod_eq_of_lt hlt, Nat.not_le.2 hlt, hbyte, State.setCnt, State.setResp]

/-- The counter of the closed form is a byte below the period. -/
theorem afterTicks_cnt_toNat {s : State} (hv : s.cfg.Valid) (n : Nat) :
    (afterTicks n s).cnt.toNat = (s.cnt.toNat + n) % s.cfg.period := by
  obtain ⟨_, ⟨hmin, hmax⟩, _⟩ := hv
  have hlt : (s.cnt.toNat + n) % s.cfg.period < s.cfg.period := Nat.mod_lt _ hmin
  exact Nat.mod_eq_of_lt (by omega)

/-- Completing a period in the first tick or in those after it is completing it in all of them. -/
theorem period_le_add_succ_iff {p c : Nat} (n : Nat) (hc : c < p) :
    (p ≤ c + 1 ∨ p ≤ (c + 1) % p + n) ↔ p ≤ c + (n + 1) := by
  obtain hlt | hfull : c + 1 < p ∨ c + 1 = p := by omega
  · rw [Nat.mod_eq_of_lt hlt]
    omega
  · omega

/-- The closed form composes: one tick and then `n`. -/
theorem afterTicks_afterTicks_one {s : State} (hv : s.cfg.Valid) (hcnt : s.cnt.toNat ≤ s.cfg.period - 1) (n : Nat) :
    afterTicks n (afterTicks 1 s) = afterTicks (n + 1) s := by
  have hmin := one_le_period_of_valid hv
  have hcount : (afterTicks n (afterTicks 1 s)).cnt = (afterTicks (n + 1) s).cnt := by
    rw [afterTicks_cnt, afterTicks_cnt_toNat hv, afterTicks_cfg, afterTicks_cnt, Nat.mod_add_mod, Nat.add_assoc,
      Nat.add_comm 1 n]
  have hpending : (afterTicks n (afterTicks 1 s)).uif = (afterTicks (n + 1) s).uif := by
    rw [Bool.eq_iff_iff, afterTicks_uif_iff, afterTicks_uif_iff, afterTicks_uif_iff, afterTicks_cnt_toNat hv,
      afterTicks_cfg, or_assoc, period_le_add_succ_iff n (by omega)]
  exact State.ext rfl rfl rfl hcount hpending rfl rfl rfl rfl rfl rfl rfl

/-- Whatever `GIE` is, CNT is issued while the timer is on (R95). -/
theorem issue_cntEvent {s : State} (hv : s.cfg.Valid) (hl : s.latency = .any) (hon : s.cen = true)
    (hcnt : s.cnt.toNat ≤ s.cfg.period - 1) : issue cntEvent s = .next (afterTicks 1 s) :=
  (issue_next_iff cntEvent s _).2
    ⟨hv, admits_any _ s hl, (execCnt_next_iff s _).2 ⟨hon, (countTick_setResp hv hcnt).symm⟩⟩

/-- `CNT*n` from the first tick on. -/
theorem runEvents_countEvents_succ (n : Nat) {s : State} (hv : s.cfg.Valid) (hl : s.latency = .any)
    (hon : s.cen = true) (hcnt : s.cnt.toNat ≤ s.cfg.period - 1) :
    runEvents (countEvents (n + 1)) s = .next (afterTicks (n + 1) s) := by
  induction n generalizing s with
  | zero => exact (runEvents_cons_next cntEvent [] s _).2 ⟨_, issue_cntEvent hv hl hon hcnt, rfl⟩
  | succ n ih =>
    have hfirst := issue_cntEvent hv hl hon hcnt
    have hrest : runEvents (countEvents (n + 1)) (afterTicks 1 s) = .next (afterTicks (n + 2) s) := by
      rw [← afterTicks_afterTicks_one hv hcnt (n + 1)]
      exact ih (s := afterTicks 1 s) hv hl hon (issue_cnt_le hcnt hfirst)
    exact (runEvents_cons_next cntEvent (countEvents (n + 1)) s _).2 ⟨_, hfirst, hrest⟩

/-- The ticks that `WRAP` counts complete the period exactly. -/
theorem afterTicks_wrap {s : State} (hcnt : s.cnt.toNat ≤ s.cfg.period) :
    afterTicks (s.cfg.period - s.cnt.toNat) s = { s with cnt := 0, uif := true, resp := none } := by
  simp [afterTicks, Nat.add_sub_cancel' hcnt]

/-- Settles O31: both are runs of at least one CNT. -/
theorem countingFollowsTheClosedForm : Obligations.CountingFollowsTheClosedForm := by
  intro n s hv hl hon hcnt
  have hrun : ∀ k, 1 ≤ k → runEvents (countEvents k) s = .next (afterTicks k s) := fun k hk => by
    obtain ⟨m, rfl⟩ := Nat.exists_eq_add_of_le' hk
    exact runEvents_countEvents_succ m hv hl hon hcnt
  have hmin := one_le_period_of_valid hv
  refine ⟨hrun n, ?wrap⟩
  case wrap =>
    rw [wrapEvents, hrun _ (by omega), afterTicks_wrap (by omega)]

/-! ### The text of a trace -/

/-- A sign that the tokenizer collects into a word: none of those it gives a meaning of their own (R47). -/
abbrev WordChar (c : Char) : Prop :=
  ¬ (c = '\n' ∨ c = ';') ∧ ¬ (c = ' ' ∨ c = '\t' ∨ c = '\r') ∧ c ≠ '#' ∧ c ≠ '*' ∧ c.toNat ≠ 123 ∧ c.toNat ≠ 125

theorem lexTrace_cons_wordChar {c : Char} (hc : WordChar c) (cs acc : List Char) :
    lexTrace (c :: cs) acc false = lexTrace cs (c :: acc) false := by
  obtain ⟨hstop, hblank, hcomment, hstar, hopen, hclose⟩ := hc
  rw [lexTrace, if_neg hstop, if_neg hblank, if_neg hcomment, if_neg hstar, if_neg hopen, if_neg hclose]

theorem lexTrace_append_word {w : List Char} (hw : ∀ c ∈ w, WordChar c) (cs acc : List Char) :
    lexTrace (w ++ cs) acc false = lexTrace cs (w.reverse ++ acc) false := by
  induction w generalizing acc with
  | nil => rfl
  | cons c w ih =>
    obtain ⟨hc, hrest⟩ := List.forall_mem_cons.1 hw
    rw [List.cons_append, lexTrace_cons_wordChar hc, ih hrest, List.reverse_cons, List.append_assoc,
      List.singleton_append]

theorem lexTrace_newline (cs acc : List Char) :
    lexTrace ('\n' :: cs) acc false = flushWord acc (.stop :: lexTrace cs [] false) := rfl

theorem flushWord_reverse {w : List Char} (hw : w ≠ []) (ts : List Token) :
    flushWord w.reverse ts = .word w :: ts := by
  obtain ⟨c, cs, hcs⟩ := List.exists_cons_of_ne_nil (mt List.reverse_eq_nil_iff.1 hw)
  rw [hcs, flushWord, ← hcs, List.reverse_reverse]

/-- A word on a line of its own is a word and the end of a statement. -/
theorem lexTrace_line {w : List Char} (hne : w ≠ []) (hw : ∀ c ∈ w, WordChar c) (cs : List Char) :
    lexTrace (w ++ '\n' :: cs) [] false = .word w :: .stop :: lexTrace cs [] false := by
  rw [lexTrace_append_word hw, List.append_nil, lexTrace_newline, flushWord_reverse hne]

theorem mnemonic_wordChar (i : Instr) : ∀ c ∈ mnemonic i, WordChar c := by
  cases i <;> simp [mnemonic, WordChar]

theorem mnemonic_ne_nil (i : Instr) : mnemonic i ≠ [] := by
  cases i <;> exact List.cons_ne_nil _ _

/-- A mnemonic names its operation and is no pseudo-operation. -/
theorem readWord_mnemonic (i : Instr) : readWord (mnemonic i) = some (.op i none) := by
  cases i <;> decide

/-- A word on a line of its own is read as the statement it is. -/
theorem readTokens_line {w : List Char} {x : Item} (hw : readWord w = some x) (ts : List Token) :
    readTokens (.word w :: .stop :: ts) [] = (readTokens ts []).map (x :: ·) := by
  have hline : readStatement [.word w] = some [x] := by rw [readStatement, hw, Option.map_some]
  rw [readTokens, readTokens, List.reverse_singleton, hline]
  · rfl
  · exact fun h => nomatch h

/-- The reader's first two stages undo the writer. -/
theorem readTokens_writeOps (ops : List Instr) :
    readTokens (lexTrace (writeOps ops) [] false) [] = some (ops.map fun i => .op i none) := by
  induction ops with
  | nil => rfl
  | cons i is ih =>
    rw [writeOps, lexTrace_line (mnemonic_ne_nil i) (mnemonic_wordChar i), readTokens_line (readWord_mnemonic i), ih]
    rfl

/-- Operations neither begin nor end a critical section. -/
theorem sectionsClose_ops (ops : List Instr) (depth : Nat) :
    sectionsClose (ops.map fun i => .op i none) depth = (depth == 0) := by
  induction ops with
  | nil => rfl
  | cons i is ih => exact ih

/-- Settles O4: the two stages give the operations back, and these hold no critical section. -/
theorem traceTextRoundTrip : Obligations.TraceTextRoundTrip := by
  intro ops
  rw [readTrace, readTokens_writeOps]
  exact if_pos (sectionsClose_ops ops 0)

end Sys2Proof.Machine
end

section
/-! PROOFS. The prescaler constant calculator (spec 40_prescaler_calculator.md R50 to R63, R72, R84, R131). First the
selection of the divisor, an inversion of `selectDivisor` and its closed form over the clock; then the three outcomes of
`calculate`; then the constants of an admitted clock, whose bounds all rest on `128000 * d ≤ F_CPU < 256000 * d`, the
first inequality for a divisor above 1. -/

namespace Sys2Proof.Machine

/-! ### The set of divisors -/

theorem divSet_pairwise_lt : divSet.Pairwise (· < ·) := by decide

theorem pos_of_mem_divSet : ∀ d ∈ divSet, 0 < d := by decide

theorem le_of_mem_divSet : ∀ d ∈ divSet, d ≤ 128 := by decide

/-- The code of a divisor is its exponent, in three bits (R54). -/
theorem two_pow_prescalerCode : ∀ d ∈ divSet, d = 2 ^ prescalerCode d ∧ prescalerCode d < 8 := by decide

theorem eq_one_or_half_mem : ∀ d ∈ divSet, d = 1 ∨ ∃ e ∈ divSet, d = 2 * e := by decide

/-! ### The selection -/

/-- The test of R52 over the clock in Hz. -/
theorem div_lt_256_iff {d : Nat} (hd : 0 < d) (fCpu : Nat) : fCpu / 1000 / d < 256 ↔ fCpu < 256000 * d := by
  rw [Nat.div_lt_iff_lt_mul hd]
  omega

/-- What a selection says (R52): the divisor passes the test, and every smaller one of the set fails it, since in the
ordered set it stands before the one selected. -/
theorem selectDivisor_eq_some {cpm d : Nat} (h : selectDivisor cpm = some d) :
    d ∈ divSet ∧ cpm / d < 256 ∧ ∀ e ∈ divSet, e < d → 256 ≤ cpm / e := by
  obtain ⟨hpass, before, after, hset, hfail⟩ := List.find?_eq_some_iff_append.mp h
  refine ⟨List.mem_of_find?_eq_some h, of_decide_eq_true hpass, fun e he hlt => ?_⟩
  have hsorted : (before ++ d :: after).Pairwise (· < ·) := hset ▸ divSet_pairwise_lt
  obtain ⟨_, htail, _⟩ := List.pairwise_append.mp hsorted
  obtain ⟨hafter, _⟩ := List.pairwise_cons.mp htail
  have hbefore : e ∈ before := by
    rw [hset, List.mem_append, List.mem_cons] at he
    obtain hin | rfl | hin := he
    · exact hin
    · exact absurd hlt (Nat.lt_irrefl _)
    · exact absurd hlt (Nat.lt_asymm (hafter e hin))
  have hnot : ¬ cpm / e < countLimit := by simpa only [Bool.not_eq_true', decide_eq_false_iff_not] using hfail e hbefore
  exact Nat.not_lt.mp hnot

theorem selectDivisor_eq_none_iff (cpm : Nat) : selectDivisor cpm = none ↔ ∀ d ∈ divSet, 256 ≤ cpm / d := by
  simp only [selectDivisor, List.find?_eq_none, decide_eq_true_eq, Nat.not_lt]
  exact Iff.rfl

/-- When a divisor of the set passes the test, the largest one does. -/
theorem all_fail_iff_last_fails (cpm : Nat) : (∀ d ∈ divSet, 256 ≤ cpm / d) ↔ 256 ≤ cpm / 128 := by
  constructor
  · exact fun h => h 128 (by decide)
  · exact fun h d hd => h.trans (Nat.div_le_div_left (le_of_mem_divSet d hd) (pos_of_mem_divSet d hd))

/-! ### The outcomes of the calculator -/

theorem calculate_eq_ok_iff (fCpu : Nat) (c : Cfg) :
    calculate fCpu = .ok c ↔
      1000 ≤ fCpu ∧ ∃ d, selectDivisor (cyclesPerMs fCpu) = some d ∧ constantsFor fCpu d = c := by
  rw [calculate]
  split
  case isTrue hslow => simp [Nat.not_le.mpr hslow]
  case isFalse hok => cases selectDivisor (cyclesPerMs fCpu) <;> simp [Nat.not_lt.mp hok]

theorem calculate_eq_tooSlow_iff (fCpu : Nat) : calculate fCpu = .error .clockTooSlow ↔ fCpu < 1000 := by
  rw [calculate]
  split
  case isTrue hslow => simp [hslow]
  case isFalse hok => cases selectDivisor (cyclesPerMs fCpu) <;> simp [hok]

/-- A clock below 1 kHz is too slow first, but then the divisor 1 would pass. -/
theorem calculate_eq_tooFast_iff (fCpu : Nat) :
    calculate fCpu = .error .clockTooFast ↔ selectDivisor (cyclesPerMs fCpu) = none := by
  rw [calculate]
  split
  case isTrue hslow =>
    have hzero : cyclesPerMs fCpu = 0 := Nat.div_eq_of_lt hslow
    rw [selectDivisor_eq_none_iff, all_fail_iff_last_fails, hzero]
    simp
  case isFalse => cases selectDivisor (cyclesPerMs fCpu) <;> simp

theorem calculate_eq_tooFast_iff_last_fails (fCpu : Nat) :
    calculate fCpu = .error .clockTooFast ↔ 256 ≤ fCpu / 1000 / 128 := by
  rw [calculate_eq_tooFast_iff, selectDivisor_eq_none_iff, all_fail_iff_last_fails, cyclesPerMs]

theorem calculate_eq_tooFast_iff_le (fCpu : Nat) : calculate fCpu = .error .clockTooFast ↔ 32768000 ≤ fCpu := by
  rw [calculate_eq_tooFast_iff_last_fails]
  omega

/-- The clocks that give a block are those that neither error refuses. -/
theorem exists_calculate_eq_ok_iff (fCpu : Nat) :
    (∃ c, calculate fCpu = .ok c) ↔ 1000 ≤ fCpu ∧ fCpu < 32768000 := by
  have hslow := calculate_eq_tooSlow_iff fCpu
  have hfast := calculate_eq_tooFast_iff_le fCpu
  rcases hcalc : calculate fCpu with e | c
  case ok => simp_all
  case error => cases e <;> simp_all

/-! ### Elaboration -/

theorem elaborate_of_ok {fCpu : Nat} {c : Cfg} (h : calculate fCpu = .ok c) (l : HandlerLatency) :
    elaborate fCpu l = .ok (State.resetWith c l) := by
  rw [elaborate, h]

theorem elaborate_of_error {fCpu : Nat} {e : ConfigError} (h : calculate fCpu = .error e) (l : HandlerLatency) :
    elaborate fCpu l = .error e := by
  rw [elaborate, h]

theorem exists_elaborate_eq_ok_iff (fCpu : Nat) (l : HandlerLatency) :
    (∃ s, elaborate fCpu l = .ok s) ↔ ∃ c, calculate fCpu = .ok c := by
  cases hcalc : calculate fCpu with
  | error e => simp [elaborate_of_error hcalc]
  | ok c => simp [elaborate_of_ok hcalc]

/-- Settles O42, one outcome of the calculator after the other. -/
theorem calculatorRefusesOutOfRangeClocks : Obligations.CalculatorRefusesOutOfRangeClocks := by
  intro fCpu
  refine ⟨?noDivisor, calculate_eq_tooFast_iff_last_fails fCpu, calculate_eq_tooFast_iff_le fCpu,
    calculate_eq_tooSlow_iff fCpu, exists_calculate_eq_ok_iff fCpu, exists_elaborate_eq_ok_iff fCpu⟩
  case noDivisor => rw [calculate_eq_tooFast_iff, selectDivisor_eq_none_iff, cyclesPerMs]

/-! ### The divisor of an admitted clock -/

/-- Settles O43: the inversion of the selection, each test in both of its forms. -/
theorem calculatorSelectsTheFirstDivisor : Obligations.CalculatorSelectsTheFirstDivisor := by
  intro fCpu c h
  obtain ⟨_, d, hsel, rfl⟩ := (calculate_eq_ok_iff fCpu c).mp h
  obtain ⟨hmem, hpass, hfirst⟩ := selectDivisor_eq_some hsel
  refine ⟨rfl, hmem, hpass, (div_lt_256_iff (pos_of_mem_divSet d hmem) fCpu).mp hpass, fun e he hlt => ?_⟩
  have hfail : 256 ≤ fCpu / 1000 / e := hfirst e he hlt
  have hclock := (div_lt_256_iff (pos_of_mem_divSet e he) fCpu).not
  exact ⟨hfail, Nat.not_lt.mp (hclock.mp (Nat.not_lt.mpr hfail))⟩

theorem calculate_fCpu {fCpu : Nat} {c : Cfg} (h : calculate fCpu = .ok c) : c.fCpu = fCpu :=
  (calculatorSelectsTheFirstDivisor fCpu c h).1

/-- A selected divisor is 1 or its half failed the test, which bounds the clock from below. -/
theorem calculate_clock_bounds {fCpu : Nat} {c : Cfg} (h : calculate fCpu = .ok c) :
    1000 ≤ fCpu ∧ fCpu < 256000 * c.divisor ∧ (c.divisor = 1 ∨ 128000 * c.divisor ≤ fCpu) := by
  obtain ⟨hmin, _⟩ := (calculate_eq_ok_iff fCpu c).mp h
  obtain ⟨_, hmem, _, hmax, hfirst⟩ := calculatorSelectsTheFirstDivisor fCpu c h
  refine ⟨hmin, hmax, (eq_one_or_half_mem c.divisor hmem).imp_right fun ⟨e, he, hhalf⟩ => ?_⟩
  have hpos := pos_of_mem_divSet e he
  obtain ⟨_, hlow⟩ := hfirst e he (by omega)
  omega

/-! ### The constants of an admitted clock -/

/-- Settles O44: the definitions, with the shift of R58 as a division. -/
theorem calculatorConstants : Obligations.CalculatorConstants := by
  intro fCpu c h
  obtain ⟨_, d, hsel, rfl⟩ := (calculate_eq_ok_iff fCpu c).mp h
  obtain ⟨hmem, _⟩ := selectDivisor_eq_some hsel
  obtain ⟨hpow, hcode⟩ := two_pow_prescalerCode d hmem
  exact ⟨hpow, hcode, rfl, rfl, rfl, rfl, Nat.shiftRight_eq_div_pow _ 3, rfl⟩

/-- R61 (a): the period fits the counter and is never empty. -/
theorem calculate_period_bounds {fCpu : Nat} {c : Cfg} (h : calculate fCpu = .ok c) :
    1 ≤ c.period ∧ c.period ≤ 255 := by
  obtain ⟨_, hmem, hpass, _, _⟩ := calculatorSelectsTheFirstDivisor fCpu c h
  obtain ⟨_, _, hperiod, _⟩ := calculatorConstants fCpu c h
  obtain ⟨hmin, _, hlow⟩ := calculate_clock_bounds h
  have hle : c.divisor ≤ fCpu / 1000 := by omega
  rw [hperiod]
  exact ⟨Nat.div_pos hle (pos_of_mem_divSet _ hmem), Nat.le_of_lt_succ hpass⟩

/-- R61 (b): a period is no longer than a millisecond. -/
theorem calculate_divisor_mul_period_le {fCpu : Nat} {c : Cfg} (h : calculate fCpu = .ok c) :
    c.divisor * c.period ≤ fCpu / 1000 := by
  obtain ⟨_, _, hperiod, _⟩ := calculatorConstants fCpu c h
  rw [hperiod]
  exact Nat.mul_div_le _ _

/-- R61 (c): an overflow is no longer than a millisecond in microseconds either. -/
theorem calculate_usPerOvf_le {fCpu : Nat} {c : Cfg} (h : calculate fCpu = .ok c) : c.usPerOvf ≤ 1000 := by
  have hcycles := calculate_divisor_mul_period_le h
  obtain ⟨_, _, _, _, husPerOvf, _⟩ := calculatorConstants fCpu c h
  rw [husPerOvf]
  exact Nat.div_le_of_le_mul (by omega)

/-- R61 (e). -/
theorem calculate_usPerTick_bounds {fCpu : Nat} {c : Cfg} (h : calculate fCpu = .ok c) :
    3 ≤ c.usPerTick ∧ c.usPerTick ≤ 1000 := by
  obtain ⟨hmin, hmax, hlow⟩ := calculate_clock_bounds h
  obtain ⟨_, _, _, husPerTick, _⟩ := calculatorConstants fCpu c h
  rw [husPerTick]
  exact ⟨(Nat.le_div_iff_mul_le (by omega)).mpr (by omega), Nat.div_le_of_le_mul (by omega)⟩

/-- R61 (d). -/
theorem calculate_fract_bounds {fCpu : Nat} {c : Cfg} (h : calculate fCpu = .ok c) :
    c.fractInc ≤ 124 ∧ c.fractMax = 125 := by
  obtain ⟨_, _, _, _, _, _, hfractInc, hfractMax⟩ := calculatorConstants fCpu c h
  exact ⟨by omega, hfractMax⟩

/-- The constraints of R22 hold of every record the calculator gives. -/
theorem calculate_valid {fCpu : Nat} {c : Cfg} (h : calculate fCpu = .ok c) : c.Valid := by
  obtain ⟨_, hmem, _⟩ := calculatorSelectsTheFirstDivisor fCpu c h
  obtain ⟨hpow, hcode, _, _, _, hmillis, _⟩ := calculatorConstants fCpu c h
  have hovf := calculate_usPerOvf_le h
  obtain ⟨_, htick⟩ := calculate_usPerTick_bounds h
  obtain ⟨hinc, hceil⟩ := calculate_fract_bounds h
  exact ⟨⟨hmem, hpow, Nat.le_of_lt_succ hcode⟩, calculate_period_bounds h, by omega, by omega, by omega, by omega⟩

/-- Settles O45: the clauses are the bounds above; the last one is FR below the ceiling plus its increment (R61 (f)). -/
theorem calculatorOutputsAreBounded : Obligations.CalculatorOutputsAreBounded := by
  intro fCpu c h
  obtain ⟨_, _, _, _, _, hmillis, hfractInc, _⟩ := calculatorConstants fCpu c h
  have hovf := calculate_usPerOvf_le h
  have hfract := calculate_fract_bounds h
  exact ⟨calculate_valid h, calculate_period_bounds h, calculate_divisor_mul_period_le h, by omega, hfract,
    calculate_usPerTick_bounds h, fun f hf => by omega⟩

/-- Settles O39: an admitted clock has a valid record, whose reset state meets the invariants. -/
theorem elaborationBuildsAResetBlock : Obligations.ElaborationBuildsAResetBlock := by
  intro fCpu l
  refine ⟨fun hslow => ?slow, fun hfast => ?fast, fun hmin hmax => ?admitted⟩
  case slow => exact elaborate_of_error ((calculate_eq_tooSlow_iff fCpu).mpr hslow) l
  case fast => exact elaborate_of_error ((calculate_eq_tooFast_iff_le fCpu).mpr hfast) l
  case admitted =>
    obtain ⟨c, hc⟩ := (exists_calculate_eq_ok_iff fCpu).mpr ⟨hmin, hmax⟩
    exact ⟨c, hc, elaborate_of_ok hc l, resetWith_inv l (calculate_valid hc)⟩

/-! ### What the constants lose -/

/-- The millisecond clock counts an overflow's microseconds but for what the shift of R58 drops. -/
theorem usCountedByMillis_add_residual {fCpu : Nat} {c : Cfg} (h : calculate fCpu = .ok c) :
    usCountedByMillis c + c.usPerOvf % 1000 % 8 = c.usPerOvf := by
  obtain ⟨_, _, _, _, _, hmillis, hfractInc, _⟩ := calculatorConstants fCpu c h
  rw [usCountedByMillis]
  omega

/-- Settles O48: both clauses follow from the exact sum. -/
theorem residualOfTheShift : Obligations.ResidualOfTheShift := by
  intro fCpu c h
  have hsum := usCountedByMillis_add_residual h
  rw [residualPerOverflow]
  omega

/-- Under (X3) of R62 the truncation of the tick costs the microsecond clock nothing. -/
theorem usCountedByMicros_eq_usPerOvf {fCpu : Nat} {c : Cfg} (h : calculate fCpu = .ok c)
    (hx3 : c.divisor * usPerSecond % c.fCpu = 0) : usCountedByMicros c = c.usPerOvf := by
  obtain ⟨_, _, _, husPerTick, husPerOvf, _⟩ := calculatorConstants fCpu c h
  have hdvd : fCpu ∣ c.divisor * 1000000 := by
    rw [calculate_fCpu h] at hx3
    exact Nat.dvd_of_mod_eq_zero hx3
  calc usCountedByMicros c
      = c.period * (c.divisor * 1000000 / fCpu) := by rw [usCountedByMicros, husPerTick]
    _ = c.period * (c.divisor * 1000000) / fCpu := (Nat.mul_div_assoc _ hdvd).symm
    _ = c.usPerOvf := by rw [husPerOvf, Nat.mul_left_comm, Nat.mul_assoc]

/-- Settles O46: each row is an evaluation of the calculator. -/
theorem calculatorWorkedRows : Obligations.CalculatorWorkedRows := by
  unfold Obligations.CalculatorWorkedRows
  decide

/-- Settles O47: (X5) makes the millisecond clock exact and (X3) the microsecond clock. -/
theorem exactConfigurationsAgree : Obligations.ExactConfigurationsAgree := by
  refine ⟨fun fCpu c h ⟨_, _, hx3, _, hx5⟩ => ?agree, ?validated⟩
  case agree =>
    have hmillis := usCountedByMillis_add_residual h
    rw [usCountedByMicros_eq_usPerOvf h hx3]
    omega
  case validated =>
    obtain ⟨h16MHz, h8MHz, _⟩ := calculatorWorkedRows
    exact ⟨_, _, h16MHz, by decide, h8MHz, by decide⟩

end Sys2Proof.Machine
end

section
/-! PROOFS. The tick accumulator (spec 41_tick_accumulator.md R66) and what TICK and CNT do to MICROS (42_clock_reader.md
R82). Step 3 of TICK is read off `accumulateFraction` result by result; MICROS goes through `countedTicks`, which TICK
keeps and every run accounts for. -/

namespace Sys2Proof.Machine

/-! ### The five steps of TICK -/

/-- Step 3 carries when the fraction is counted at all and the exact sum reaches the ceiling. -/
theorem accumulateFraction_carry_iff (c : Cfg) (f : Nat) :
    (accumulateFraction c f).2 = true ↔ c.fractInc ≠ 0 ∧ c.fractMax ≤ f + c.fractInc := by
  obtain ⟨hres, hzero⟩ | ⟨hres, hinc, hge⟩ | ⟨hres, _, hlt⟩ := accumulateFraction_cases c f
  · simp [hres, hzero]
  · simp [hres, hinc, hge]
  · simp [hres, Nat.not_le.2 hlt]

theorem serviceOverflow_ms_steps (s : State) :
    (serviceOverflow s).ms = if s.cfg.fractInc ≠ 0 ∧ s.cfg.fractMax ≤ s.fr.toNat + s.cfg.fractInc
      then s.ms + BitVec.ofNat 32 s.cfg.millisInc + 1 else s.ms + BitVec.ofNat 32 s.cfg.millisInc :=
  if_congr (accumulateFraction_carry_iff s.cfg s.fr.toNat) rfl rfl

theorem serviceOverflow_fr_steps (s : State) :
    (serviceOverflow s).fr = if s.cfg.fractInc = 0 then s.fr
      else if s.cfg.fractMax ≤ s.fr.toNat + s.cfg.fractInc
      then BitVec.ofNat 8 (s.fr.toNat + s.cfg.fractInc - s.cfg.fractMax)
      else BitVec.ofNat 8 (s.fr.toNat + s.cfg.fractInc) := by
  rw [serviceOverflow_fr]
  obtain ⟨hres, hzero⟩ | ⟨hres, hinc, hge⟩ | ⟨hres, hinc, hlt⟩ := accumulateFraction_cases s.cfg s.fr.toNat
  · simp [hres, hzero]
  · simp [hres, hinc, hge]
  · simp [hres, hinc, Nat.not_le.2 hlt]

/-- Settles O25: the data registers step by step, every other field as the frame of TICK has it. -/
theorem tickFiveSteps : Obligations.TickFiveSteps := by
  refine ⟨rfl, fun s huif huie hgie => ?_⟩
  rw [exec_tick, execTick_next_iff]
  exact ⟨(tickEnabled_iff s).2 ⟨huif, huie, hgie⟩, State.ext (serviceOverflow_ms_steps s).symm
    (serviceOverflow_fr_steps s).symm rfl rfl rfl rfl rfl rfl rfl rfl rfl rfl⟩

/-! ### What TICK and a run do to MICROS -/

/-- Settles O19: TICK keeps the counted ticks, and neither side of it is on the third row of R80: before it `CNT` is off
the end of the period, after it nothing is pending. -/
theorem tickKeepsMicros : Obligations.TickKeepsMicros := by
  intro s t hlt h
  obtain ⟨hg, rfl⟩ := (execTick_next_iff s t).1 h
  obtain ⟨huif, _⟩ := (tickEnabled_iff s).1 hg
  have hbefore : s.atBoundary = false := by
    have hne := Nat.ne_of_lt hlt
    simp [State.atBoundary, State.atPeriodEnd, hne]
  calc microsValue ((serviceOverflow s).setResp none)
      = countedTicks (serviceOverflow s) * BitVec.ofNat 32 s.cfg.usPerTick :=
        microsValue_eq_countedTicks hlt.le rfl
    _ = countedTicks s * BitVec.ofNat 32 s.cfg.usPerTick := by rw [countedTicks_serviceOverflow huif]
    _ = microsValue s := (microsValue_eq_countedTicks hlt.le hbefore).symm

/-- Settles O20: the accounting of the counted ticks over the run, converted to microseconds at both ends. -/
theorem microsAdvancesByTicksLessMissed : Obligations.MicrosAdvancesByTicksLessMissed := by
  intro es s t _ hcnt hs hrun ht
  have hticks := runEvents_countedTicks es s t hcnt hrun
  rw [BitVec.ofNat_mul] at hticks
  rw [microsValue_eq_countedTicks hcnt hs, microsValue_eq_countedTicks (runEvents_cnt_le es s t hcnt hrun) ht,
    runEvents_cfg es s t hrun, BitVec.ofNat_mul, BitVec.ofNat_mul, BitVec.ofNat_mul]
  linear_combination BitVec.ofNat 32 s.cfg.usPerTick * hticks

end Sys2Proof.Machine
end

section
/-! PROOFS. The clock reader (spec 42_clock_reader.md R75 to R81, 70_reset_and_hazards.md R135). The conversion of R79 is
read over the naturals and as an arithmetic progression in `OVF`; the value of MICROS is then given once for each answer
of the compensation test R78. Runs come last: what one without TICK keeps, and how many ticks a pending overflow is away
from the third row of R80. -/

namespace Sys2Proof.Machine

/-! ### MILLIS -/

theorem exec_millis (s : State) :
    exec .millis s = .next { s with resp := some { rdata := s.ms, rerr := false } } := rfl

/-- Settles O13. -/
theorem millisReturnsTheAccumulator : Obligations.MillisReturnsTheAccumulator :=
  ⟨rfl, exec_millis⟩

/-- Only TICK writes the data registers (R13), so a run without it keeps them. -/
theorem runEvents_keeps_data {es : List Event} {s t : State} (hno : tickEvent ∉ es)
    (h : runEvents es s = .next t) : t.ms = s.ms ∧ t.fr = s.fr ∧ t.ovf = s.ovf := by
  induction es generalizing s with
  | nil => cases h; exact ⟨rfl, rfl, rfl⟩
  | cons e es ih =>
    obtain ⟨hhead, htail⟩ := not_or.1 (mt List.mem_cons.2 hno)
    obtain ⟨u, hu, hrun⟩ := (runEvents_cons_next e es s t).1 h
    obtain ⟨hms, hfr, hovf⟩ := ih htail hrun
    obtain ⟨_, hums, hufr, huovf⟩ | ⟨htick, _⟩ := (issue_occurs e s u hu).data_cases
    · exact ⟨hms.trans hums, hfr.trans hufr, hovf.trans huovf⟩
    · exact absurd htick.symm hhead

/-- Settles O14: the value of the first MILLIS is `MS`, which the run keeps for the second. -/
theorem millisIsConstantBetweenTicks : Obligations.MillisIsConstantBetweenTicks := by
  intro es s t u v hno hmillis hrun hresp
  obtain rfl := (answer_next_iff s.ms s t).1 hmillis
  obtain ⟨hms, hfr, hovf⟩ := runEvents_keeps_data hno hrun
  have hv : u.ms = v := by
    rw [State.setResp_resp, Option.some.injEq, Response.mk.injEq] at hresp
    obtain ⟨hvalue, _⟩ := hresp
    exact hms.trans hvalue
  exact ⟨hv ▸ exec_millis u, hms, hfr, hovf⟩

/-! ### The conversion of MICROS -/

theorem exec_micros (s : State) :
    exec .micros s = .next { s with resp := some { rdata := microsValue s, rerr := false } } := rfl

/-- The conversion of R79 is the one over the naturals reduced once: every step of it is exact modulo `2^32`. -/
theorem toMicros_eq_ofNat (c : Cfg) (m : Word) (t : Byte) :
    toMicros c m t = BitVec.ofNat 32 ((m.toNat * c.period + t.toNat) * c.usPerTick) := by
  rw [toMicros, BitVec.ofNat_mul, BitVec.ofNat_add, BitVec.ofNat_mul, BitVec.ofNat_toNat, BitVec.ofNat_toNat,
    BitVec.setWidth_eq]

/-- One overflow more is one period more in microseconds, at the wrap of the count too. -/
theorem toMicros_add_one (c : Cfg) (m : Word) (t : Byte) :
    toMicros c (m + 1) t = toMicros c m t + BitVec.ofNat 32 (c.period * c.usPerTick) := by
  rw [toMicros, toMicros, BitVec.ofNat_mul]
  ring

/-- The value of MICROS, the test of R78 written out. -/
theorem microsValue_eq (s : State) :
    microsValue s = toMicros s.cfg
      (if s.uif = true ∧ s.cnt.toNat < s.cfg.period - 1 then s.ovf + 1 else s.ovf) s.cnt :=
  congrArg (toMicros s.cfg · s.cnt) (compensated_eq s.cfg.period (snapshot s))

theorem microsValue_of_compensates {s : State} (huif : s.uif = true) (hlt : s.cnt.toNat < s.cfg.period - 1) :
    microsValue s = toMicros s.cfg (s.ovf + 1) s.cnt := by
  rw [microsValue_eq, if_pos ⟨huif, hlt⟩]

theorem microsValue_of_not_compensates {s : State} (h : ¬ (s.uif = true ∧ s.cnt.toNat < s.cfg.period - 1)) :
    microsValue s = toMicros s.cfg s.ovf s.cnt := by
  rw [microsValue_eq, if_neg h]

theorem microsValue_of_not_pending {s : State} (huif : s.uif = false) :
    microsValue s = toMicros s.cfg s.ovf s.cnt :=
  microsValue_of_not_compensates fun ⟨hset, _⟩ => Bool.false_ne_true (huif.symm.trans hset)

/-- Settles O15. -/
theorem microsSnapshotAndConversion : Obligations.MicrosSnapshotAndConversion :=
  ⟨rfl, fun s => ⟨exec_micros s, microsValue_eq s⟩⟩

/-- Settles O16: the conversion over the naturals, of the compensated count. -/
theorem microsReducesOnce : Obligations.MicrosReducesOnce := by
  intro s m v
  have hv : microsValue s = v := (microsValue_eq s).trans (toMicros_eq_ofNat s.cfg m s.cnt)
  exact ⟨hv ▸ exec_micros s, hv⟩

/-- Settles O17: the second clause is the only one in which the test of R78 holds. -/
theorem microsByCaseOfTheSnapshot : Obligations.MicrosByCaseOfTheSnapshot := by
  intro s _ hcnt e
  have hplain (h : ¬ (s.uif = true ∧ s.cnt.toNat < s.cfg.period - 1)) :
      microsValue s = BitVec.ofNat 32 (e * s.cfg.usPerTick) :=
    (microsValue_of_not_compensates h).trans (toMicros_eq_ofNat s.cfg s.ovf s.cnt)
  refine ⟨fun huif => ?notPending, fun huif hlt => ?countedIn, fun _ hend => hplain (by omega),
    fun hone => hplain (by omega), fun htwo _ hne => hplain (by omega)⟩
  case notPending => exact hplain (by simp [huif])
  case countedIn =>
    rw [microsValue_of_compensates huif (by omega), toMicros_add_one, toMicros_eq_ofNat, ← BitVec.ofNat_add,
      ← Nat.add_mul]

/-- Settles O18: the conversion is a progression in the count, and compensation adds one to the count. -/
theorem microsContinuousAcrossTheWrap : Obligations.MicrosContinuousAcrossTheWrap := by
  intro s
  have hnext (huif : s.uif = false) :
      microsValue { s with ovf := s.ovf + 1 } = toMicros s.cfg (s.ovf + 1) s.cnt :=
    microsValue_of_not_pending huif
  refine ⟨fun huif => ?continuous, fun huif hlt => ?compensated⟩
  case continuous => rw [hnext huif, toMicros_add_one, microsValue_of_not_pending huif]
  case compensated => exact (microsValue_of_compensates (s := { s with uif := true }) rfl hlt).trans (hnext huif).symm

/-- A tick below the end of the period moves the conversion by `US_PER_TICK`. -/
theorem toMicros_countTick_cnt {s : State} (hv : s.cfg.Valid) (hcnt : s.cnt.toNat ≤ s.cfg.period - 1)
    (hend : s.atPeriodEnd = false) (m : Word) :
    toMicros s.cfg m (countTick s).cnt = toMicros s.cfg m s.cnt + BitVec.ofNat 32 s.cfg.usPerTick := by
  rw [toMicros, toMicros, countTick_cnt_zeroExtend hv hcnt hend]
  ring

/-- Settles O22: the tick goes from the second row of R80 to the third, which gains a tick and loses a period. -/
theorem boundaryStepsBackwards : Obligations.BoundaryStepsBackwards := by
  intro s t hv huif hcnt h
  obtain ⟨_, rfl⟩ := (execCnt_next_iff s t).1 h
  have hle : s.cnt.toNat ≤ s.cfg.period - 1 := by omega
  have hend : s.atPeriodEnd = false := by
    have hne : s.cnt.toNat ≠ s.cfg.period - 1 := by omega
    simpa [State.atPeriodEnd] using hne
  have hafter : ¬ ((countTick s).uif = true ∧ (countTick s).cnt.toNat < (countTick s).cfg.period - 1) := by
    rw [countTick_cnt_toNat hv hle hend, countTick_cfg]
    omega
  have hperiod : s.cfg.usPerTick + (s.cfg.period - 1) * s.cfg.usPerTick = s.cfg.period * s.cfg.usPerTick := by
    rw [← one_add_mul, Nat.add_sub_cancel' (one_le_period_of_valid hv)]
  calc microsValue (countTick s) + BitVec.ofNat 32 ((s.cfg.period - 1) * s.cfg.usPerTick)
      = toMicros s.cfg s.ovf (countTick s).cnt + BitVec.ofNat 32 ((s.cfg.period - 1) * s.cfg.usPerTick) := by
        rw [microsValue_of_not_compensates hafter, countTick_cfg, countTick_ovf]
    _ = toMicros s.cfg s.ovf s.cnt + BitVec.ofNat 32 (s.cfg.period * s.cfg.usPerTick) := by
        rw [toMicros_countTick_cnt hv hle hend, BitVec.add_assoc, ← BitVec.ofNat_add, hperiod]
    _ = microsValue s := by rw [microsValue_of_compensates huif (by omega), toMicros_add_one]

/-! ### How far the third row of R80 is away -/

/-- The next `n` ticks reach no boundary: they are fewer than a period, and with an overflow pending they leave `CNT`
below the end of the period. -/
def State.ClearFor (s : State) (n : Nat) : Prop :=
  n < s.cfg.period ∧ (s.uif = true → s.cnt.toNat + n < s.cfg.period - 1)

theorem State.ClearFor.atBoundary_eq_false {s : State} {n : Nat} (h : s.ClearFor n) : s.atBoundary = false := by
  obtain ⟨_, hroom⟩ := h
  rw [State.atBoundary, Bool.and_eq_false_imp]
  intro huif
  have hne : s.cnt.toNat ≠ s.cfg.period - 1 := by
    have hbelow := hroom huif
    omega
  simpa [State.atPeriodEnd] using hne

/-- One CNT uses up one of the ticks: a wrap restarts `CNT` at 0, a whole period away from the boundary but for one. -/
theorem State.ClearFor.after_countTick {s : State} {n : Nat} (hv : s.cfg.Valid) (hcnt : s.cnt.toNat ≤ s.cfg.period - 1)
    (h : s.ClearFor (n + 1)) : (countTick s).ClearFor n := by
  obtain ⟨hlt, hroom⟩ := h
  rw [State.ClearFor, countTick_cfg, countTick_uif]
  obtain hend | hend := Bool.eq_false_or_eq_true s.atPeriodEnd
  · have hzero : (countTick s).cnt.toNat = 0 := by simp [hend]
    exact ⟨by omega, fun _ => by omega⟩
  · rw [countTick_cnt_toNat hv hcnt hend, hend, Bool.or_false]
    refine ⟨by omega, fun huif => ?_⟩
    have hbelow := hroom huif
    omega

/-- No event but CNT uses up a tick; TICK takes the pending overflow away. -/
theorem State.ClearFor.after_issue {e : Event} {s t : State} {n : Nat} (hcnt : s.cnt.toNat ≤ s.cfg.period - 1)
    (h : s.ClearFor (n + if e = cntEvent then 1 else 0)) (hissue : issue e s = .next t) : t.ClearFor n := by
  have hv : s.cfg.Valid := ((issue_next_iff e s t).1 hissue).1
  obtain ⟨hne, hcfg, _, hc, huif⟩ | ⟨rfl, _, rfl⟩ | ⟨rfl, _, rfl⟩ := (issue_occurs e s t hissue).clock_cases
  · rw [if_neg hne] at h
    rwa [State.ClearFor, hcfg, hc, huif]
  · obtain ⟨hlt, _⟩ := h
    exact ⟨(Nat.le_add_right n _).trans_lt hlt, fun huif => nomatch huif⟩
  · rw [if_pos rfl] at h
    exact h.after_countTick hv hcnt

/-- A run that is clear for its ticks ends off the third row of R80 and misses nothing: a CNT misses an overflow exactly
where it starts on that row. -/
theorem State.ClearFor.run_misses_nothing {es : List Event} {s t : State} (hcnt : s.cnt.toNat ≤ s.cfg.period - 1)
    (h : s.ClearFor (cntCount es)) (hrun : runEvents es s = .next t) :
    t.atBoundary = false ∧ missedCount es s = 0 := by
  induction es generalizing s with
  | nil => cases hrun; exact ⟨h.atBoundary_eq_false, rfl⟩
  | cons e es ih =>
    obtain ⟨u, hu, hrest⟩ := (runEvents_cons_next e es s t).1 hrun
    have hmiss : s.wouldMissOverflow = false := h.atBoundary_eq_false
    rw [cntCount_cons] at h
    obtain ⟨hoff, hnone⟩ := ih (issue_cnt_le hcnt hu) (h.after_issue hcnt hu) hrest
    refine ⟨hoff, ?_⟩
    rw [missedCount_cons e es s u hu, hnone, hmiss]
    simp

/-- Settles O24: with nothing pending, fewer ticks than a period are clear. -/
theorem fewTicksStayOffTheBoundary : Obligations.FewTicksStayOffTheBoundary := by
  intro es s t _ hcnt huif hrun hfew
  have hclear : s.ClearFor (cntCount es) := ⟨hfew, fun hset => absurd (huif.symm.trans hset) Bool.false_ne_true⟩
  exact hclear.run_misses_nothing hcnt hrun

end Sys2Proof.Machine
end

section
/-! PROOFS. The control operations (spec 43_control_ops.md R85 to R91, 70_reset_and_hazards.md R132). First each
operation's whole next state and what it makes of `issue`; then the critical section and the two boot orders as runs of
these. The two suspensions, a stopped timer and masked interrupts, are one induction: a bit that only one operation sets
stays clear, and the event it guards stays out, on every run without that operation. -/

namespace Sys2Proof.Machine

/-! ### The whole next state -/

theorem exec_nop (s : State) :
    exec .nop s = .next { s with resp := some { rdata := 0, rerr := false } } := rfl

theorem exec_tstart (s : State) :
    exec .tstart s =
      .next { s with cen := true, uie := true, resp := some { rdata := 0, rerr := false } } := rfl

theorem exec_tstop (s : State) :
    exec .tstop s = .next { s with cen := false, resp := some { rdata := 0, rerr := false } } := rfl

theorem exec_idis (s : State) :
    exec .idis s = .next { s with gie := false, resp := some { rdata := 0, rerr := false } } := rfl

theorem exec_ien (s : State) :
    exec .ien s = .next { s with gie := true, resp := some { rdata := 0, rerr := false } } := rfl

/-- Settles O5. -/
theorem nopChangesNothing : Obligations.NopChangesNothing :=
  ⟨rfl, exec_nop⟩

/-- Settles O6: TSTART writes constants, so a second one writes the same. -/
theorem tstartStartsTheTimer : Obligations.TstartStartsTheTimer := by
  refine ⟨rfl, exec_tstart, fun s t h => ?again, fun c l => exec_tstart _⟩
  case again =>
    rw [exec_tstart, Host.Outcome.next.injEq] at h
    subst h
    exact exec_tstart _

/-- Settles O7. -/
theorem tstopStopsTheTimer : Obligations.TstopStopsTheTimer :=
  ⟨rfl, exec_tstop⟩

/-- Settles O10: IEN supplies the last of the three conditions of TICK (R114). -/
theorem ienRestoresDelivery : Obligations.IenRestoresDelivery := by
  refine ⟨rfl, exec_ien, fun s t huif huie h => ?enabled, fun c l t h => ?boot⟩
  case enabled =>
    rw [exec_ien, Host.Outcome.next.injEq] at h
    subst h
    exact ⟨_, (execTick_next_iff _ _).2 ⟨(tickEnabled_iff _).2 ⟨huif, huie, rfl⟩, rfl⟩⟩
  case boot =>
    rw [exec_tstart, Host.Outcome.next.injEq] at h
    subst h
    exact exec_ien _

/-- With nothing counted and nothing pending MICROS is 0, whatever the constants. -/
theorem microsValue_resetWith (c : Cfg) (l : HandlerLatency) : microsValue (State.resetWith c l) = 0 := by
  rw [microsValue_of_not_pending rfl]
  simp [toMicros]

/-- Settles O12. -/
theorem hostOperationsAreTotal : Obligations.HostOperationsAreTotal := by
  refine ⟨fun i s hi => ?total, fun c l => ⟨exec_millis _, ?micros⟩⟩
  case total =>
    obtain ⟨t, ht, hresp⟩ := exec_host hi s
    exact ⟨t, hostValue s i, ht, hresp⟩
  case micros => rw [exec_micros, microsValue_resetWith]

/-! ### Runs of control operations -/

/-- What its own agent issues of an operation is the operation's meaning. -/
theorem issue_own {i : Instr} {s : State} (hv : s.cfg.Valid) (ha : admits i.event s = true) :
    issue i.event s = exec i s :=
  (issue_of_admits hv ha).trans (perform_of_decode_ok (decode_encode i) s)

theorem runEvents_cons_of_issue {e : Event} {s u : State} (h : issue e s = .next u) (es : List Event) :
    runEvents (e :: es) s = runEvents es u := by
  rw [runEvents, h]

/-- Settles O11, by induction on the number of IDIS: each one more leaves a state that differs only in what IEN writes. -/
theorem criticalSectionsDoNotNest : Obligations.CriticalSectionsDoNotNest := by
  intro n
  induction n with
  | zero =>
    intro s hv hl
    have hien := (issue_own hv (admits_any _ s hl)).trans (exec_ien s)
    exact runEvents_cons_of_issue hien []
  | succ n ih =>
    intro s hv hl
    have hidis := (issue_own hv (admits_any _ s hl)).trans (exec_idis s)
    rw [List.replicate_succ, List.cons_append, runEvents_cons_of_issue hidis]
    exact ih { s with gie := false, resp := some { rdata := 0, rerr := false } } hv hl

/-- While nothing is pending TICK is disabled, and no latency turns an operation away. -/
theorem admits_of_not_pending (e : Event) {s : State} (huif : s.uif = false) : admits e s = true :=
  (admits_iff e s).2 (.inr (.inl (by simp [State.tickEnabled, huif])))

/-- Two operations in a row, nothing pending before either. -/
theorem runEvents_pair {i j : Instr} {s u t : State} (hv : s.cfg.Valid) (hs : s.uif = false)
    (hi : exec i s = .next u) (hu : u.uif = false) (hj : exec j u = .next t) :
    runEvents [i.event, j.event] s = .next t := by
  have hfirst := (issue_own hv (admits_of_not_pending _ hs)).trans hi
  have hvu : u.cfg.Valid := issue_cfg hfirst ▸ hv
  have hsecond := (issue_own hvu (admits_of_not_pending _ hu)).trans hj
  rw [runEvents_cons_of_issue hfirst, runEvents_cons_of_issue hsecond, runEvents_nil]

/-- Settles O40: TSTART and IEN write different flags. -/
theorem bootInEitherOrder : Obligations.BootInEitherOrder := by
  intro c l hv
  have hboot := runEvents_pair (s := State.resetWith c l) hv rfl (exec_tstart _) rfl (exec_ien _)
  have hswapped := runEvents_pair (s := State.resetWith c l) hv rfl (exec_ien _) rfl (exec_tstart _)
  exact ⟨hboot, hswapped.trans hboot.symm⟩

/-! ### Suspended events -/

/-- If in every state that is `Off` the event `guarded` does not occur, and every event but `enable` leaves the state
`Off`, then a run from such a state without `enable` holds no `guarded` and ends in one. -/
theorem runEvents_stays_off {Off : State → Prop} {enable guarded : Event}
    (hstep : ∀ {e s t}, Off s → e ≠ enable → Occurs s e t → e ≠ guarded ∧ Off t)
    {es : List Event} {s t : State} (hs : Off s) (hno : enable ∉ es) (h : runEvents es s = .next t) :
    guarded ∉ es ∧ Off t := by
  induction es generalizing s with
  | nil => cases h; exact ⟨List.not_mem_nil, hs⟩
  | cons e es ih =>
    obtain ⟨hhead, htail⟩ := List.ne_and_not_mem_of_not_mem_cons hno
    obtain ⟨u, hu, hrun⟩ := (runEvents_cons_next e es s t).1 h
    obtain ⟨hne, hoff⟩ := hstep hs hhead.symm (issue_occurs e s u hu)
    obtain ⟨hrest, ht⟩ := ih hoff htail hrun
    exact ⟨List.not_mem_cons_of_ne_of_not_mem hne.symm hrest, ht⟩

/-- The guard of CNT (R95). -/
theorem Occurs.cen_of_cnt {s t : State} (h : Occurs s cntEvent t) : s.cen = true := by
  obtain ⟨hg, _⟩ := h.of_timer rfl
  exact (cntEnabled_iff s).1 hg

/-- `GIE` is one of the conditions of TICK (R114). -/
theorem Occurs.gie_of_tick {s t : State} (h : Occurs s tickEvent t) : s.gie = true := by
  obtain ⟨hg, _⟩ := h.of_handler rfl
  obtain ⟨_, _, hgie⟩ := (tickEnabled_iff s).1 hg
  exact hgie

/-- Only TSTART leaves a stopped timer running. -/
theorem Occurs.stays_stopped {e : Event} {s t : State} (hoff : s.cen = false) (hne : e ≠ Instr.event .tstart)
    (h : Occurs s e t) : e ≠ cntEvent ∧ t.cen = false := by
  obtain ⟨hrises, _⟩ := flag_rises_and_falls h.cen_cases
  refine ⟨?guarded, Bool.eq_false_iff.2 fun hon => hne (hrises hoff hon)⟩
  rintro rfl
  exact Bool.false_ne_true (hoff.symm.trans h.cen_of_cnt)

/-- Only IEN lifts the suspension of interrupt delivery. -/
theorem Occurs.stays_suspended {e : Event} {s t : State} (hoff : s.gie = false) (hne : e ≠ Instr.event .ien)
    (h : Occurs s e t) : e ≠ tickEvent ∧ t.gie = false := by
  obtain ⟨hrises, _⟩ := flag_rises_and_falls h.gie_cases
  refine ⟨?guarded, Bool.eq_false_iff.2 fun hon => hne (hrises hoff hon)⟩
  rintro rfl
  exact Bool.false_ne_true (hoff.symm.trans h.gie_of_tick)

/-- Without CNT a run keeps the counter and the counted ticks, and no overflow becomes pending. -/
theorem runEvents_keeps_clock {es : List Event} {s t : State} (hno : cntEvent ∉ es) (h : runEvents es s = .next t) :
    t.cnt = s.cnt ∧ (t.uif = true → s.uif = true) ∧ countedTicks t = countedTicks s := by
  induction es generalizing s with
  | nil => cases h; exact ⟨rfl, id, rfl⟩
  | cons e es ih =>
    obtain ⟨hhead, htail⟩ := List.ne_and_not_mem_of_not_mem_cons hno
    obtain ⟨u, hu, hrun⟩ := (runEvents_cons_next e es s t).1 h
    obtain ⟨hcnt, hpending, hticks⟩ := ih htail hrun
    obtain ⟨_, hcfg, hovf, hc, huif⟩ | ⟨_, hg, rfl⟩ | ⟨hcntEvent, _, _⟩ := (issue_occurs e s u hu).clock_cases
    · exact ⟨hcnt.trans hc, fun ht => huif ▸ hpending ht, hticks.trans (countedTicks_congr hcfg hovf hc huif)⟩
    · obtain ⟨huif, _⟩ := (tickEnabled_iff s).1 hg
      exact ⟨hcnt, fun _ => huif, hticks.trans (countedTicks_serviceOverflow huif)⟩
    · exact absurd hcntEvent.symm hhead

theorem atBoundary_iff (s : State) :
    s.atBoundary = true ↔ s.uif = true ∧ s.cnt.toNat = s.cfg.period - 1 := by
  rw [State.atBoundary, Bool.and_eq_true, atPeriodEnd_iff]

/-- Off the third row of R80 a run without CNT stays off it, and MICROS holds. -/
theorem runEvents_keeps_micros {es : List Event} {s t : State} (hcnt : s.cnt.toNat ≤ s.cfg.period - 1)
    (hoff : s.atBoundary = false) (hno : cntEvent ∉ es) (h : runEvents es s = .next t) :
    microsValue t = microsValue s := by
  obtain ⟨hkept, hpending, hticks⟩ := runEvents_keeps_clock hno h
  have hcfg := runEvents_cfg es s t h
  have htoff : t.atBoundary = false := by
    rw [← Bool.not_eq_true, atBoundary_iff] at hoff ⊢
    rw [hkept, hcfg]
    exact fun ⟨huif, hend⟩ => hoff ⟨hpending huif, hend⟩
  rw [microsValue_eq_countedTicks (runEvents_cnt_le es s t hcnt h) htoff, hticks, hcfg,
    microsValue_eq_countedTicks hcnt hoff]

/-- Settles O8: the guard of CNT stays false, and without CNT the clock holds. -/
theorem stoppedTimerHoldsTheClock : Obligations.StoppedTimerHoldsTheClock := by
  intro es s t hstopped hcnt hno h
  obtain ⟨hnoCnt, hstill⟩ := runEvents_stays_off Occurs.stays_stopped hstopped hno h
  obtain ⟨hkept, _⟩ := runEvents_keeps_clock hnoCnt h
  exact ⟨hnoCnt, hstill, hkept, fun hoff => runEvents_keeps_micros hcnt hoff hnoCnt h⟩

/-- Settles O9: `GIE` stays clear and TICK stays out, so the data registers hold; CNT asks for `CEN` alone. -/
theorem idisSuspendsDelivery : Obligations.IdisSuspendsDelivery := by
  refine ⟨rfl, exec_idis, fun es s t hoff hno h => ?suspended, fun s hoff hon => ?counts⟩
  case suspended =>
    obtain ⟨hnoTick, hstill⟩ := runEvents_stays_off Occurs.stays_suspended hoff hno h
    obtain ⟨hms, hfr, hovf⟩ := runEvents_keeps_data hnoTick h
    exact ⟨hnoTick, hms, hfr, hovf, hstill⟩
  case counts =>
    refine ⟨_, (execCnt_next_iff s _).2 ⟨hon, rfl⟩, (countTick_gie s).trans hoff, fun hend => ?_⟩
    rw [State.setResp_uif, countTick_uif, (atPeriodEnd_iff s).2 hend, Bool.or_true]

end Sys2Proof.Machine
end

section
/-! PROOFS. The timer (spec 44_timer_events.md R95 to R97). First the two branches of one CNT as whole next states, of which
the missed overflow is the wrapping one; then a whole period, read off the closed form of `CNT*n`; then fair runs, where a
started timer stays started as long as the host does not stop it. -/

namespace Sys2Proof.Machine

/-! ### One tick -/

theorem exec_cnt_of_enabled {s : State} (hon : s.cen = true) :
    exec .cnt s = .next ((countTick s).setResp none) :=
  (execCnt_next_iff s _).2 ⟨(cntEnabled_iff s).2 hon, rfl⟩

/-- At the end of the period the counter returns to 0 (R96). -/
theorem exec_cnt_wrap {s : State} (hon : s.cen = true) (hend : s.cnt.toNat = s.cfg.period - 1) :
    exec .cnt s = .next { s with cnt := 0, uif := true, resp := none } := by
  rw [exec_cnt_of_enabled hon, countTick, if_pos ((atPeriodEnd_iff s).2 hend)]
  rfl

/-- Anywhere else it counts up (R96). -/
theorem exec_cnt_up {s : State} (hon : s.cen = true) (hend : s.cnt.toNat ≠ s.cfg.period - 1) :
    exec .cnt s = .next { s with cnt := s.cnt + 1, resp := none } := by
  rw [exec_cnt_of_enabled hon, countTick, if_neg (mt (atPeriodEnd_iff s).1 hend)]
  rfl

/-- Settles O32: the wrap writes 1 over a flag that is 1. -/
theorem missedOverflowLeavesNoTrace : Obligations.MissedOverflowLeavesNoTrace := by
  intro s hon hpending hend
  rw [exec_cnt_wrap hon hend, ← hpending]

/-! ### One period -/

/-- A whole period brings the counter back to where it started. -/
theorem afterTicks_period {s : State} (hv : s.cfg.Valid) (hcnt : s.cnt.toNat ≤ s.cfg.period - 1) :
    afterTicks s.cfg.period s = { s with uif := true, resp := none } := by
  have hmin := one_le_period_of_valid hv
  have hback : (s.cnt.toNat + s.cfg.period) % s.cfg.period = s.cnt.toNat := by
    rw [Nat.add_mod_right, Nat.mod_eq_of_lt (by omega)]
  simp [afterTicks, hback]

/-- Settles O30: the two branches of a tick, invariant I2, and `CNT*n` with `n = PERIOD`. -/
theorem cntCountsOnePeriod : Obligations.CntCountsOnePeriod := by
  refine ⟨rfl, fun s hon => ?tick, fun s t hv hcnt h => ?bounded, fun s hv hl hon hcnt => ?period⟩
  case tick =>
    split
    · next hend => exact exec_cnt_wrap hon hend
    · next hend => exact exec_cnt_up hon hend
  case bounded =>
    obtain ⟨_, rfl⟩ := (execCnt_next_iff s t).1 h
    exact countTick_cnt_le hv hcnt
  case period =>
    obtain ⟨hrun, _⟩ := countingFollowsTheClosedForm s.cfg.period s hv hl hon hcnt
    exact (hrun (one_le_period_of_valid hv)).trans (congrArg _ (afterTicks_period hv hcnt))

/-! ### Fair runs -/

/-- Only TSTOP stops a started timer. -/
theorem Occurs.stays_started {e : Event} {s t : State} (hon : s.cen = true) (hne : e ≠ Instr.event .tstop)
    (h : Occurs s e t) : t.cen = true := by
  obtain ⟨_, hfalls⟩ := flag_rises_and_falls h.cen_cases
  exact Bool.of_not_eq_false fun hoff => hne (hfalls hon hoff)

/-- Along an unending run a started timer stays started while the host issues no TSTOP. -/
theorem UnendingRun.stays_started {states : Nat → State} {events : Nat → Event} {n : Nat}
    (hrun : UnendingRun states events) (hon : (states n).cen = true)
    (hno : ∀ m, n ≤ m → events m ≠ Instr.event .tstop) {m : Nat} (hm : n ≤ m) : (states m).cen = true := by
  induction m, hm using Nat.le_induction with
  | base => exact hon
  | succ m hm ih => exact (issue_occurs _ _ _ (hrun m)).stays_started ih (hno m hm)

/-- Settles O53: from every `k` on CNT is enabled without interruption, so fairness gives one more. -/
theorem fairRunsCountForever : Obligations.FairRunsCountForever := by
  intro states events n hrun hfair hon hno k hk
  exact hfair k fun m hm => (cntEnabled_iff _).2 (hrun.stays_started hon hno (hk.trans hm))

end Sys2Proof.Machine
end

section
/-! PROOFS. The client `delay` (spec 45_delay_clients.md R101 to R104). First the branches of the polling loop, one equation
each; then the reading of the 16-bit test on a clock given as a natural number; then the invariant `Delay.CountsFrom`, which
the entry establishes, every poll keeps, and whose clauses at the end of the loop are the marker law of R102. -/

namespace Sys2Proof.Machine

@[simp] theorem lowHalf_ofNat (n : Nat) : lowHalf (BitVec.ofNat 32 n) = BitVec.ofNat 16 n :=
  BitVec.setWidth_ofNat_of_le (by decide) n

namespace Delay

/-! ### One poll -/

/-- The loop's condition comes first: with nothing left to count there is neither a yield nor a MICROS. -/
theorem poll_of_remaining_zero {d : Delay} (hdone : d.remaining = 0) (form : PollForm) (y : Bool) (polls : List Word) :
    poll form y polls d = d := by
  cases polls with
  | nil => rfl
  | cons now rest => exact if_pos hdone

/-- The variables when a poll makes its test: it has issued its MICROS, after a yield where one was to come. -/
def beforeTest (y : Bool) (d : Delay) : Delay := (if y then d.yield else d).read

@[simp] theorem beforeTest_remaining (y : Bool) (d : Delay) : (d.beforeTest y).remaining = d.remaining := by
  cases y <;> rfl

@[simp] theorem beforeTest_start (y : Bool) (d : Delay) : (d.beforeTest y).start = d.start := by
  cases y <;> rfl

theorem poll_cons {d : Delay} (hleft : d.remaining ≠ 0) (form : PollForm) (y : Bool) (now : Word) (rest : List Word) :
    poll form y (now :: rest) d =
      if (d.beforeTest y).due now then poll form (decide (form = .once)) rest (d.beforeTest y).countOne
      else poll form true rest (d.beforeTest y) :=
  if_neg hleft

/-! ### The 16-bit test on a clock without a width -/

/-- The difference loses multiples of `2^16` only, so a test that succeeds has at least 1000 microseconds behind it. -/
theorem marker_add_le_of_due {d : Delay} {marker now : Nat} (hstart : d.start = BitVec.ofNat 16 marker) (hle : marker ≤ now)
    (hdue : d.due (BitVec.ofNat 32 now) = true) : marker + 1000 ≤ now := by
  obtain ⟨k, rfl⟩ := Nat.exists_eq_add_of_le hle
  have htest : 1000 ≤ (elapsed 16 d.start (lowHalf (BitVec.ofNat 32 (marker + k)))).toNat := of_decide_eq_true hdue
  rw [lowHalf_ofNat, hstart, BitVec.ofNat_add, elapsed_add, BitVec.toNat_ofNat] at htest
  exact Nat.add_le_add_left (htest.trans (Nat.mod_le k _)) marker

/-! ### The invariant of the loop -/

/-- The variables of a `delay(ms)` entered at the time `first`, with the clock last read at `seen`: the marker has advanced
by 1000 for each millisecond counted, and what has been counted has elapsed. -/
structure CountsFrom (first ms seen : Nat) (d : Delay) : Prop where
  remaining_le : d.remaining ≤ ms
  start_eq : d.start = BitVec.ofNat 16 (first + 1000 * (ms - d.remaining))
  counted_le : first + 1000 * (ms - d.remaining) ≤ seen

variable {first ms seen now : Nat} {d : Delay}

theorem enter_countsFrom (first ms : Nat) : CountsFrom first ms first (enter ms (BitVec.ofNat 32 first)) where
  remaining_le := Nat.le_refl ms
  start_eq := by simp [enter]
  counted_le := by simp [enter]

/-- The clock moving forward, a yield and a MICROS take nothing from what has elapsed. -/
theorem CountsFrom.beforeTest (h : CountsFrom first ms seen d) (hle : seen ≤ now) (y : Bool) :
    CountsFrom first ms now (d.beforeTest y) where
  remaining_le := by simpa using h.remaining_le
  start_eq := by simpa using h.start_eq
  counted_le := by simpa using h.counted_le.trans hle

theorem CountsFrom.countOne (h : CountsFrom first ms now d) (hleft : d.remaining ≠ 0)
    (hdue : d.due (BitVec.ofNat 32 now) = true) : CountsFrom first ms now d.countOne := by
  have hle := h.remaining_le
  have hmarker : first + 1000 * (ms - (d.remaining - 1)) = first + 1000 * (ms - d.remaining) + 1000 := by omega
  exact {
    remaining_le := (Nat.sub_le _ 1).trans hle
    start_eq := by
      show d.start + 1000 = BitVec.ofNat 16 (first + 1000 * (ms - (d.remaining - 1)))
      rw [hmarker, BitVec.ofNat_add, ← h.start_eq]
      rfl
    counted_le := hmarker.trans_le (marker_add_le_of_due h.start_eq h.counted_le hdue) }

/-- By induction on the polls: each is at a time not before the one last seen, which takes its place. -/
theorem CountsFrom.poll (form : PollForm) (y : Bool) (polls : List Nat) (hclock : (seen :: polls).Pairwise (· ≤ ·))
    (h : CountsFrom first ms seen d) :
    CountsFrom first ms (polls.getLastD seen) (poll form y (polls.map (BitVec.ofNat 32)) d) := by
  induction polls generalizing y seen d with
  | nil => exact h
  | cons now rest ih =>
    obtain ⟨hseen, hrest⟩ := List.pairwise_cons.1 hclock
    have hnow := h.beforeTest (hseen now List.mem_cons_self) y
    rw [List.getLastD_cons, List.map_cons]
    by_cases hleft : d.remaining = 0
    · rw [poll_of_remaining_zero hleft]
      have hlast : seen ≤ rest.getLastD now := hseen _ List.getLastD_mem_cons
      exact { h with counted_le := h.counted_le.trans hlast }
    · rw [poll_cons hleft]
      split
      case isTrue hdue => exact ih _ hrest (hnow.countOne (by simpa using hleft) hdue)
      case isFalse => exact ih _ hrest hnow

end Delay

/-! ### The two statements -/

/-- Settles O56: the entry meets the invariant and the polls keep it. -/
theorem delayNeverCountsTooMuch : Obligations.DelayNeverCountsTooMuch := by
  intro form ms first polls hclock
  obtain ⟨hremaining, hstart, hcounted⟩ := (Delay.enter_countsFrom first ms).poll form true polls hclock
  exact ⟨hremaining, hstart, by rwa [List.getLastD_cons]⟩

/-- Settles O57: the loop is not entered, and the MICROS issued is the one that takes the marker. -/
theorem delayZeroReturnsAtOnce : Obligations.DelayZeroReturnsAtOnce := by
  intro form now polls
  have henter : delay form 0 now polls = Delay.enter 0 now := Delay.poll_of_remaining_zero rfl form true polls
  rw [henter]
  exact ⟨rfl, rfl, rfl⟩

end Sys2Proof.Machine
end

section
/-! PROOFS. Exceptions (spec 60_exceptions.md R114 to R120): the one interrupt of the block. First what latency
`immediate` turns away, and that it admits nothing `any` does not; then when TICK is enabled: an overflow served stays
served until a CNT wraps, and one that can be served can be until it is; then the wrap that coincides with a MICROS. -/

namespace Sys2Proof.Machine

/-! ### The latency of the handler -/

/-- Settles O51: MICROS is not TICK, so where it goes on TICK is disabled. -/
theorem immediateLatencyPutsTickFirst : Obligations.ImmediateLatencyPutsTickFirst := by
  intro e s t hl h
  obtain ⟨_, ha, _⟩ := (issue_next_iff e s t).1 h
  have hfirst : s.tickEnabled = true → e = tickEvent := fun hg => by
    simpa [hl, hg] using (admits_iff e s).1 ha
  refine ⟨hfirst, ?micros⟩
  rintro rfl huif
  have hdisabled : s.tickEnabled = false := Bool.eq_false_iff.2 fun hg => absurd (hfirst hg) (by decide)
  rw [State.tickEnabled, huif, Bool.true_and, Bool.and_eq_false_iff] at hdisabled
  exact hdisabled.symm

/-- The same block under latency `any`. -/
def State.underAny (s : State) : State := { s with latency := .any }

theorem countTick_underAny (s : State) : countTick s.underAny = (countTick s).underAny := by
  unfold countTick
  rw [apply_ite State.underAny]
  rfl

/-- No operation reads the latency. -/
theorem exec_underAny {i : Instr} {s t : State} (h : exec i s = .next t) :
    exec i s.underAny = .next t.underAny := by
  cases i with
  | nop | millis | micros | tstart | tstop | idis | ien => cases h; rfl
  | tick =>
    obtain ⟨hg, rfl⟩ := (execTick_next_iff s t).1 h
    exact (execTick_next_iff _ _).2 ⟨hg, rfl⟩
  | cnt =>
    obtain ⟨hg, rfl⟩ := (execCnt_next_iff s t).1 h
    exact (execCnt_next_iff _ _).2 ⟨hg, by rw [countTick_underAny]; rfl⟩

/-- Under `any` whatever goes on goes on, to the same registers and the same response. -/
theorem issue_underAny {e : Event} {s t : State} (h : issue e s = .next t) :
    issue e s.underAny = .next t.underAny := by
  obtain ⟨hv, _, hp⟩ := (issue_next_iff e s t).1 h
  refine (issue_next_iff e _ _).2 ⟨hv, admits_any e _ rfl, ?_⟩
  obtain ⟨i, hdec, hexec⟩ | ⟨code, hdec, rfl⟩ := perform_next e s t hp
  · exact (perform_of_decode_ok hdec _).trans (exec_underAny hexec)
  · exact perform_of_illegal hdec _

theorem runEvents_underAny {es : List Event} {s t : State} (h : runEvents es s = .next t) :
    runEvents es s.underAny = .next t.underAny ∧ responses es s.underAny = responses es s := by
  induction es generalizing s with
  | nil => cases h; exact ⟨rfl, rfl⟩
  | cons e es ih =>
    obtain ⟨u, hu, hrun⟩ := (runEvents_cons_next e es s t).1 h
    obtain ⟨hrest, hresp⟩ := ih hrun
    have hany := issue_underAny hu
    rw [responses_cons e es s u hu, responses_cons e es _ _ hany, hresp]
    exact ⟨(runEvents_cons_of_issue hany es).trans hrest, rfl⟩

/-- Settles O52: of the runs of `immediate` only that they go on is used. -/
theorem anyLatencyAdmitsImmediateRuns : Obligations.AnyLatencyAdmitsImmediateRuns :=
  fun _ _ _ _ h => runEvents_underAny h

/-! ### When TICK is enabled -/

/-- `UIF` is one of the conditions of TICK (R114). -/
theorem Occurs.uif_of_tick {s t : State} (h : Occurs s tickEvent t) : s.uif = true := by
  obtain ⟨hg, _⟩ := h.of_handler rfl
  obtain ⟨huif, _⟩ := (tickEnabled_iff s).1 hg
  exact huif

/-- With nothing pending, only a wrapping CNT makes an overflow pending. -/
theorem Occurs.stays_served {e : Event} {s t : State} (hs : s.uif = false)
    (hne : ¬ (e = cntEvent ∧ s.atPeriodEnd = true)) (h : Occurs s e t) : e ≠ tickEvent ∧ t.uif = false := by
  obtain ⟨hrises, _⟩ := flag_rises_and_falls h.uif_cases
  rw [← atPeriodEnd_iff] at hrises
  refine ⟨?guarded, Bool.eq_false_iff.2 fun ht => hne (hrises hs ht)⟩
  rintro rfl
  exact Bool.false_ne_true (hs.symm.trans h.uif_of_tick)

/-- With nothing pending, a run in which no CNT wraps holds no TICK. -/
theorem runEvents_stays_served {es : List Event} {s t : State} (hs : s.uif = false) (hwrap : wrapCount es s = 0)
    (h : runEvents es s = .next t) : t.uif = false ∧ tickEvent ∉ es := by
  induction es generalizing s with
  | nil => cases h; exact ⟨hs, List.not_mem_nil⟩
  | cons e es ih =>
    obtain ⟨u, hu, hrun⟩ := (runEvents_cons_next e es s t).1 h
    rw [wrapCount_cons e es s u hu, Nat.add_eq_zero_iff] at hwrap
    obtain ⟨hhead, htail⟩ := hwrap
    have hnoWrap : ¬ (e = cntEvent ∧ s.atPeriodEnd = true) := by simpa using hhead
    obtain ⟨hne, hserved⟩ := (issue_occurs e s u hu).stays_served hs hnoWrap
    obtain ⟨ht, hrest⟩ := ih hserved htail hrun
    exact ⟨ht, List.not_mem_cons_of_ne_of_not_mem hne.symm hrest⟩

/-- Settles O29: TICK leaves nothing pending. -/
theorem tickIsNotRepeatedForOneEvent : Obligations.TickIsNotRepeatedForOneEvent := by
  intro es s t u h hwrap hrun
  obtain ⟨_, rfl⟩ := (execTick_next_iff s t).1 h
  exact runEvents_stays_served rfl hwrap hrun

/-- Only TICK itself and IDIS disable TICK. -/
theorem Occurs.stays_enabled {e : Event} {s t : State} (hs : s.tickEnabled = true) (htick : e ≠ tickEvent)
    (hidis : e ≠ Instr.event .idis) (h : Occurs s e t) : t.tickEnabled = true := by
  obtain ⟨huif, huie, hgie⟩ := (tickEnabled_iff s).1 hs
  obtain ⟨_, huifFalls⟩ := flag_rises_and_falls h.uif_cases
  obtain ⟨_, huieFalls⟩ := flag_rises_and_falls (clearedBy := False) (h.uie_cases.imp_right .inl)
  obtain ⟨_, hgieFalls⟩ := flag_rises_and_falls h.gie_cases
  exact (tickEnabled_iff t).2
    ⟨Bool.of_not_eq_false fun hoff => htick (huifFalls huif hoff),
      Bool.of_not_eq_false fun hoff => huieFalls huie hoff,
      Bool.of_not_eq_false fun hoff => hidis (hgieFalls hgie hoff)⟩

/-- Along an unending run an enabled TICK stays enabled while neither it nor IDIS occurs. -/
theorem UnendingRun.stays_enabled {states : Nat → State} {events : Nat → Event} {n : Nat}
    (hrun : UnendingRun states events) (hon : (states n).tickEnabled = true)
    (htick : ∀ m, n ≤ m → events m ≠ tickEvent) (hidis : ∀ m, n ≤ m → events m ≠ Instr.event .idis)
    {m : Nat} (hm : n ≤ m) : (states m).tickEnabled = true := by
  induction m, hm using Nat.le_induction with
  | base => exact hon
  | succ m hm ih => exact (issue_occurs _ _ _ (hrun m)).stays_enabled ih (htick m hm) (hidis m hm)

/-- Settles O54: without a TICK it would be enabled without interruption, and fairness gives one; it clears `UIF`. -/
theorem fairRunsServeThePendingOverflow : Obligations.FairRunsServeThePendingOverflow := by
  intro states events n hrun hfair hon hidis
  have hserved : ∃ m, n ≤ m ∧ events m = tickEvent := by
    by_contra hnone
    have htick : ∀ m, n ≤ m → events m ≠ tickEvent := fun m hm he => hnone ⟨m, hm, he⟩
    exact hnone (hfair n fun m hm => hrun.stays_enabled hon htick hidis hm)
  obtain ⟨m, hm, he⟩ := hserved
  have htick : Occurs (states m) tickEvent (states (m + 1)) := he ▸ issue_occurs _ _ _ (hrun m)
  obtain ⟨_, hnext⟩ := htick.of_handler rfl
  exact ⟨m, hm, he, by rw [hnext, State.setResp_uif, serviceOverflow_uif]⟩

/-! ### The wrap that coincides with MICROS -/

/-- Settles O23: neither order is on the third row of R80, when the period has more than one tick, and the wrap misses
nothing, so the counted ticks differ by the one tick. -/
theorem coincidingWrapIsOneTick : Obligations.CoincidingWrapIsOneTick := by
  intro s t hv hperiod huif hend h
  obtain ⟨_, rfl⟩ := (execCnt_next_iff s t).1 h
  have hbefore : s.atBoundary = false := by simp [State.atBoundary, huif]
  have hzero : (countTick s).cnt.toNat = 0 := by simp [(atPeriodEnd_iff s).2 hend]
  have hafter : (countTick s).atBoundary = false := by
    rw [← Bool.not_eq_true, atBoundary_iff, hzero, countTick_cfg]
    omega
  have hticks : countedTicks (countTick s) = countedTicks s + 1 := by
    simpa [State.wouldMissOverflow, huif] using countedTicks_countTick hv hend.le
  calc microsValue ((countTick s).setResp none)
      = countedTicks (countTick s) * BitVec.ofNat 32 s.cfg.usPerTick := by
        rw [← countTick_cfg s]
        exact microsValue_eq_countedTicks (hzero ▸ Nat.zero_le _) hafter
    _ = countedTicks s * BitVec.ofNat 32 s.cfg.usPerTick + BitVec.ofNat 32 s.cfg.usPerTick := by
        rw [hticks]
        ring
    _ = microsValue s + BitVec.ofNat 32 s.cfg.usPerTick := by
        rw [microsValue_eq_countedTicks hend.le hbefore]

end Sys2Proof.Machine
end

section
/-! PROOFS. Use before boot (spec 70_reset_and_hazards.md R133). A host that boots only in part is answered from the
states along its run, so first that; then what a run without TSTART and one without IEN keep from
reset; then the sweep of MICROS without IEN, read off the table of R80 at the states of the closed form of `CNT*n`. -/

namespace Sys2Proof.Machine

/-! ### Where the answers come from -/

/-- The three things an answer can be (R43, R44): 0, the value of MILLIS, or the value of MICROS. -/
theorem Occurs.rdata_cases {e : Event} {s t : State} {r : Response} (h : Occurs s e t) (hr : t.resp = some r) :
    r.rdata = 0 ∨ r.rdata = s.ms ∨ r.rdata = microsValue s := by
  cases h with
  | nop | tstart | tstop | idis | ien | illegal => cases hr; exact .inl rfl
  | millis => cases hr; exact .inr (.inl rfl)
  | micros => cases hr; exact .inr (.inr rfl)
  | tick | cnt => cases hr

/-- Every answer of a schedule is read in a state that the run reaches after some first part of it. -/
theorem exists_run_of_mem_responses {es : List Event} {s : State} {r : Response} (hr : r ∈ responses es s) :
    ∃ before rest u, es = before ++ rest ∧ runEvents before s = .next u ∧
      (r.rdata = 0 ∨ r.rdata = u.ms ∨ r.rdata = microsValue u) := by
  induction es generalizing s with
  | nil => cases hr
  | cons e es ih =>
    cases hissue : issue e s with
    | fault => simp [responses, hissue] at hr
    | refused => simp [responses, hissue] at hr
    | next v =>
      rw [responses_cons e es s v hissue, List.mem_append, Option.mem_toList] at hr
      obtain hhere | hlater := hr
      · exact ⟨[], _, s, rfl, rfl, (issue_occurs e s v hissue).rdata_cases hhere⟩
      · obtain ⟨before, rest, u, rfl, hrun, hread⟩ := ih hlater
        exact ⟨e :: before, rest, u, rfl, (runEvents_cons_of_issue hissue before).trans hrun, hread⟩

/-! ### Without TSTART -/

/-- No TSTART has reached the block: the premise of (I5) of R23 and what follows from it. -/
def State.Unstarted (s : State) : Prop := s.uie = false ∧ s.Untouched

/-- Only TSTART ends this, and CNT stays out until then. -/
theorem Occurs.stays_unstarted {e : Event} {s t : State} (hs : s.Unstarted) (hne : e ≠ Instr.event .tstart)
    (h : Occurs s e t) : e ≠ cntEvent ∧ t.Unstarted := by
  obtain ⟨huie, huntouched⟩ := hs
  have ⟨_, _, _, _, _, hstopped⟩ := huntouched
  obtain ⟨hnoCnt, _⟩ := h.stays_stopped hstopped hne
  have ht : t.uie = false := by
    obtain hkept | ⟨htstart, _⟩ := h.uie_cases
    · exact hkept.trans huie
    · exact absurd htstart hne
  exact ⟨hnoCnt, ht, h.keeps_untouched (fun _ => huntouched) ht⟩

/-- MICROS cannot tell an untouched block from one just reset. -/
theorem State.Untouched.microsValue_eq_zero {s : State} (h : s.Untouched) : microsValue s = 0 := by
  obtain ⟨_, _, hovf, hcnt, huif, _⟩ := h
  rw [microsValue_congr (State.resetWith s.cfg s.latency) s rfl hovf hcnt huif, microsValue_resetWith]

/-- Without TSTART every answer is read in an untouched state. -/
theorem rdata_eq_zero_of_omitted_tstart {c : Cfg} {l : HandlerLatency} {es : List Event} {r : Response}
    (hno : Instr.event .tstart ∉ es) (hr : r ∈ responses es (State.resetWith c l)) : r.rdata = 0 := by
  obtain ⟨before, rest, u, rfl, hrun, hread⟩ := exists_run_of_mem_responses hr
  have hreset : (State.resetWith c l).Unstarted := ⟨rfl, resetWith_untouched c l⟩
  have hbefore : Instr.event .tstart ∉ before := mt (List.mem_append_left rest) hno
  obtain ⟨_, _, huntouched⟩ := runEvents_stays_off Occurs.stays_unstarted hreset hbefore hrun
  have ⟨hms, _⟩ := huntouched
  obtain hzero | hmillis | hmicros := hread
  · exact hzero
  · exact hmillis.trans hms
  · exact hmicros.trans huntouched.microsValue_eq_zero

/-! ### Without IEN -/

/-- Interrupt delivery is suspended at reset, so without IEN it stays so and the data registers keep their 0. -/
theorem resetWith_suspended {c : Cfg} {l : HandlerLatency} {es : List Event} {t : State}
    (hno : Instr.event .ien ∉ es) (h : runEvents es (State.resetWith c l) = .next t) :
    t.ms = 0 ∧ t.fr = 0 ∧ t.ovf = 0 ∧ t.gie = false := by
  obtain ⟨_, _, hsuspended, _⟩ := idisSuspendsDelivery
  obtain ⟨_, hdata⟩ := hsuspended es _ t rfl hno h
  exact hdata

/-- Settles O41: the two omissions, each by what it keeps. -/
theorem useBeforeBootIsHarmless : Obligations.UseBeforeBootIsHarmless := by
  intro c l es t h
  refine ⟨fun hno => ?omittedIen, fun hno r hr => rdata_eq_zero_of_omitted_tstart hno hr⟩
  case omittedIen =>
    obtain ⟨hms, hfr, hovf, _⟩ := resetWith_suspended hno h
    exact ⟨hms, hfr, hovf⟩

/-- With delivery suspended TICK stays out, and nothing else clears `UIF`. -/
theorem Occurs.stays_pending {e : Event} {s t : State} (hs : s.gie = false ∧ s.uif = true)
    (hne : e ≠ Instr.event .ien) (h : Occurs s e t) : e ≠ tickEvent ∧ t.gie = false ∧ t.uif = true := by
  obtain ⟨hgie, huif⟩ := hs
  obtain ⟨hnoTick, hoff⟩ := h.stays_suspended hgie hne
  obtain ⟨_, hfalls⟩ := flag_rises_and_falls h.uif_cases
  exact ⟨hnoTick, hoff, Bool.of_not_eq_false fun hclear => hnoTick (hfalls huif hclear)⟩

/-- The table of R80 with no overflow counted: `CNT` ticks, and a period more in the second row. -/
theorem microsValue_rows_of_ovf_zero {s : State} (hv : s.cfg.Valid) (hcnt : s.cnt.toNat ≤ s.cfg.period - 1)
    (hovf : s.ovf = 0) :
    (s.uif = false → microsValue s = BitVec.ofNat 32 (s.cnt.toNat * s.cfg.usPerTick)) ∧
    (s.uif = true → s.cnt.toNat + 2 ≤ s.cfg.period →
      microsValue s = BitVec.ofNat 32 ((s.cnt.toNat + s.cfg.period) * s.cfg.usPerTick)) ∧
    (s.uif = true → s.cnt.toNat = s.cfg.period - 1 →
      microsValue s = BitVec.ofNat 32 (s.cnt.toNat * s.cfg.usPerTick)) := by
  have hticks : s.ovf.toNat * s.cfg.period + s.cnt.toNat = s.cnt.toNat := by simp [hovf]
  have hrows := microsByCaseOfTheSnapshot s hv hcnt
  rw [hticks] at hrows
  obtain ⟨hnone, hcounted, hend, _⟩ := hrows
  exact ⟨hnone, hcounted, hend⟩

/-- With no overflow counted MICROS stays below two periods less one tick: in the second row `CNT` is below the end of the
period. -/
theorem microsValue_of_ovf_zero {s : State} (hv : s.cfg.Valid) (hcnt : s.cnt.toNat ≤ s.cfg.period - 1)
    (hovf : s.ovf = 0) :
    ∃ x, x ≤ 2 * s.cfg.period - 2 ∧ microsValue s = BitVec.ofNat 32 (x * s.cfg.usPerTick) := by
  obtain ⟨hnone, hcounted, hend⟩ := microsValue_rows_of_ovf_zero hv hcnt hovf
  obtain huif | huif := Bool.eq_false_or_eq_true s.uif
  · obtain hlast | hbelow : s.cnt.toNat = s.cfg.period - 1 ∨ s.cnt.toNat + 2 ≤ s.cfg.period := by omega
    · exact ⟨_, by omega, hend huif hlast⟩
    · exact ⟨_, by omega, hcounted huif hbelow⟩
  · exact ⟨_, by omega, hnone huif⟩

/-- Without IEN every answer is within the sweep. -/
theorem rdata_of_omitted_ien {c : Cfg} {l : HandlerLatency} {es : List Event} {r : Response} (hv : c.Valid)
    (hno : Instr.event .ien ∉ es) (hr : r ∈ responses es (State.resetWith c l)) :
    ∃ x, x ≤ 2 * c.period - 2 ∧ r.rdata = BitVec.ofNat 32 (x * c.usPerTick) := by
  obtain ⟨before, rest, u, rfl, hrun, hread⟩ := exists_run_of_mem_responses hr
  obtain ⟨hms, _, hovf, _⟩ := resetWith_suspended (mt (List.mem_append_left rest) hno) hrun
  have hcfg : u.cfg = c := runEvents_cfg before _ u hrun
  have hcnt := runEvents_cnt_le before _ u (Nat.zero_le _) hrun
  have hzero : ∃ x, x ≤ 2 * c.period - 2 ∧ (0 : Word) = BitVec.ofNat 32 (x * c.usPerTick) :=
    ⟨0, Nat.zero_le _, by simp⟩
  obtain hr0 | hmillis | hmicros := hread
  · rwa [hr0]
  · rwa [hmillis, hms]
  · subst hcfg
    rw [hmicros]
    exact microsValue_of_ovf_zero hv hcnt hovf

/-! ### The sweep -/

/-- With delivery suspended TICK is disabled, and no latency turns CNT away. -/
theorem issue_cntEvent_of_suspended {s : State} (hv : s.cfg.Valid) (hoff : s.gie = false) (hon : s.cen = true)
    (hcnt : s.cnt.toNat ≤ s.cfg.period - 1) : issue cntEvent s = .next (afterTicks 1 s) := by
  have hadmits : admits cntEvent s = true :=
    (admits_iff cntEvent s).2 (.inr (.inl (by simp [State.tickEnabled, hoff])))
  rw [cntEvent, issue_own hv hadmits, exec_cnt_of_enabled hon, countTick_setResp hv hcnt]

/-- The closed form of `CNT*n` (R98) under every latency, since delivery is suspended. -/
theorem runEvents_countEvents_of_suspended (n : Nat) {s : State} (hv : s.cfg.Valid) (hoff : s.gie = false)
    (hon : s.cen = true) (hcnt : s.cnt.toNat ≤ s.cfg.period - 1) :
    runEvents (countEvents (n + 1)) s = .next (afterTicks (n + 1) s) := by
  induction n generalizing s with
  | zero => exact runEvents_cons_of_issue (issue_cntEvent_of_suspended hv hoff hon hcnt) []
  | succ n ih =>
    have hfirst := issue_cntEvent_of_suspended hv hoff hon hcnt
    rw [← afterTicks_afterTicks_one hv hcnt (n + 1)]
    exact (runEvents_cons_of_issue hfirst _).trans (ih (s := afterTicks 1 s) hv hoff hon (issue_cnt_le hcnt hfirst))

/-- The state that TSTART leaves right after reset (R86). -/
def State.startedWith (c : Cfg) (l : HandlerLatency) : State :=
  { State.resetWith c l with cen := true, uie := true, resp := some { rdata := 0, rerr := false } }

theorem issue_tstart_resetWith {c : Cfg} (l : HandlerLatency) (hv : c.Valid) :
    issue (Instr.event .tstart) (State.resetWith c l) = .next (State.startedWith c l) :=
  (issue_own (s := State.resetWith c l) hv (admits_of_not_pending _ rfl)).trans (exec_tstart _)

/-- `2 * PERIOD - 2` ticks from 0 complete one period, which is left pending, and stop two short of a second. -/
theorem afterTicks_top {s : State} (hv : s.cfg.Valid) (hperiod : 2 ≤ s.cfg.period) (hzero : s.cnt.toNat = 0) :
    (afterTicks (2 * s.cfg.period - 2) s).cnt.toNat + 2 = s.cfg.period ∧
      (afterTicks (2 * s.cfg.period - 2) s).uif = true := by
  have hsum : s.cnt.toNat + (2 * s.cfg.period - 2) = s.cfg.period - 2 + s.cfg.period := by omega
  rw [afterTicks_uif_iff, afterTicks_cnt_toNat hv, hsum, Nat.add_mod_right, Nat.mod_eq_of_lt (by omega)]
  exact ⟨Nat.sub_add_cancel hperiod, .inr (Nat.le_add_left _ _)⟩

/-- From there the next tick goes to the end of the period, without a wrap. -/
theorem afterTicks_one_of_top {s : State} (hv : s.cfg.Valid) (htop : s.cnt.toNat + 2 = s.cfg.period) :
    (afterTicks 1 s).cnt.toNat = s.cfg.period - 1 := by
  rw [afterTicks_cnt_toNat hv, Nat.mod_eq_of_lt (by omega)]
  omega

/-- The top is the last place where MICROS counts the pending period in; one CNT later it is without it. -/
theorem micros_falls_after_top {s : State} (hv : s.cfg.Valid) (hoff : s.gie = false) (hon : s.cen = true)
    (hovf : s.ovf = 0) (huif : s.uif = true) (htop : s.cnt.toNat + 2 = s.cfg.period) :
    microsValue s = BitVec.ofNat 32 ((2 * s.cfg.period - 2) * s.cfg.usPerTick) ∧
      issue cntEvent s = .next (afterTicks 1 s) ∧
      microsValue (afterTicks 1 s) = BitVec.ofNat 32 ((s.cfg.period - 1) * s.cfg.usPerTick) := by
  have hcnt : s.cnt.toNat ≤ s.cfg.period - 1 := by omega
  have hend := afterTicks_one_of_top hv htop
  have huifEnd : (afterTicks 1 s).uif = true := (afterTicks_uif_iff 1 s).2 (.inl huif)
  have hx : 2 * s.cfg.period - 2 = s.cnt.toNat + s.cfg.period := by omega
  obtain ⟨_, hcounted, _⟩ := microsValue_rows_of_ovf_zero hv hcnt hovf
  obtain ⟨_, _, hfallen⟩ := microsValue_rows_of_ovf_zero (s := afterTicks 1 s) hv hend.le hovf
  refine ⟨?top, issue_cntEvent_of_suspended hv hoff hon hcnt, ?fallen⟩
  case top => rw [hx, hcounted huif htop.le]
  case fallen => rw [hfallen huifEnd hend, hend, afterTicks_cfg]

/-- The sweep from a timer that has just been started. -/
theorem micros_sweeps_and_falls {s : State} (hv : s.cfg.Valid) (hperiod : 2 ≤ s.cfg.period) (hoff : s.gie = false)
    (hon : s.cen = true) (hovf : s.ovf = 0) (hzero : s.cnt.toNat = 0) :
    ∃ t u, runEvents (countEvents (2 * s.cfg.period - 2)) s = .next t ∧
      microsValue t = BitVec.ofNat 32 ((2 * s.cfg.period - 2) * s.cfg.usPerTick) ∧
      issue cntEvent t = .next u ∧
      microsValue u = BitVec.ofNat 32 ((s.cfg.period - 1) * s.cfg.usPerTick) := by
  obtain ⟨htop, huif⟩ := afterTicks_top hv hperiod hzero
  have hrun : runEvents (countEvents (2 * s.cfg.period - 2)) s = .next (afterTicks (2 * s.cfg.period - 2) s) := by
    obtain ⟨n, hn⟩ : ∃ n, 2 * s.cfg.period - 2 = n + 1 := Nat.exists_eq_add_of_le' (by omega)
    rw [hn, runEvents_countEvents_of_suspended n hv hoff hon (by omega)]
  exact ⟨_, _, hrun, micros_falls_after_top (s := afterTicks _ s) hv hoff hon hovf huif htop⟩

/-- Settles O58: what a run without IEN keeps, and the sweep as `CNT*n` from the state that TSTART leaves. -/
theorem omittedIenLetsMicrosSweep : Obligations.OmittedIenLetsMicrosSweep := by
  intro c l hv
  refine ⟨fun es fs t u hes hfs ht hu => ?kept, fun hperiod => ?sweep⟩
  case kept =>
    obtain ⟨hms, hfr, hovf, hoff⟩ := resetWith_suspended hes ht
    refine ⟨hms, hfr, hovf, fun huif => ?_, fun r hr => rdata_of_omitted_ien hv hes hr⟩
    obtain ⟨_, _, hpending⟩ := runEvents_stays_off Occurs.stays_pending ⟨hoff, huif⟩ hfs hu
    exact hpending
  case sweep =>
    obtain ⟨t, u, hrun, htop⟩ := micros_sweeps_and_falls (s := State.startedWith c l) hv hperiod rfl rfl rfl rfl
    exact ⟨t, u, (runEvents_cons_of_issue (issue_tstart_resetWith l hv) _).trans hrun, htop⟩

end Sys2Proof.Machine
end

section
/-! PROOFS. The words of the operation table (spec 30_encoding.md R41, R46). A table word wide enough for the four
bits of a code is that code; so what such a word decodes to follows from the operation map, for the nine operations and
for the seven reserved codes. -/

namespace Sys2Proof.Machine

theorem codeOfTableWord_toNat {nbits : Nat} (hn : 4 ≤ nbits) (code : OpCode) :
    codeOfTableWord nbits code.toNat = some code := by
  have hfit : code.toNat < 2 ^ nbits := code.isLt.trans_le (Nat.pow_le_pow_right (by decide) hn)
  rw [codeOfTableWord, Nat.mod_eq_of_lt hfit, if_pos code.isLt, BitVec.ofNat_toNat, BitVec.setWidth_eq]

theorem eventOfTableWord_toNat {nbits : Nat} (hn : 4 ≤ nbits) (code : OpCode) :
    eventOfTableWord nbits code.toNat = some (eventOfCode code) := by
  rw [eventOfTableWord, codeOfTableWord_toNat hn, Option.map_some]

/-- A bare code of the table stands for what the operation's own agent presents. -/
theorem eventOfCode_encode (i : Instr) : eventOfCode (encode i) = i.event := by
  cases i <;> rfl

/-- The codes that are nobody's: illegal from the host and neither the handler's nor the timer's (R41). -/
def reservedCodes : List OpCode := [0x3#4, 0xA#4, 0xB#4, 0xC#4, 0xD#4, 0xE#4, 0xF#4]

theorem mem_reservedCodes_iff (code : OpCode) :
    code ∈ reservedCodes ↔
      decode .host code = .error (.illegalOp code) ∧ code ≠ encode .tick ∧ code ≠ encode .cnt := by
  rw [decode_host_illegal_iff]
  revert code
  decide

/-- The word of an operation decodes to it. -/
theorem decodeTableWord_encode {nbits : Nat} (hn : 4 ≤ nbits) (i : Instr) :
    decodeTableWord nbits (encode i).toNat = some i := by
  have hdec : decode i.event.source i.event.code = .ok i := decode_encode i
  simp only [decodeTableWord, eventOfTableWord_toNat hn, eventOfCode_encode, hdec]

/-- A reserved word is presented by the host, to whom it is illegal. -/
theorem decodeTableWord_reserved {nbits : Nat} (hn : 4 ≤ nbits) {code : OpCode} (h : code ∈ reservedCodes) :
    decodeTableWord nbits code.toNat = none := by
  obtain ⟨hillegal, htick, hcnt⟩ := (mem_reservedCodes_iff code).1 h
  have hevent : eventOfCode code = { source := .host, code := code } := (if_neg htick).trans (if_neg hcnt)
  simp only [decodeTableWord, eventOfTableWord_toNat hn, hevent, hillegal]

/-- Settles O2: the nine words are encodings, and the seven others are reserved. -/
theorem writtenWordsDecode : Obligations.WrittenWordsDecode := by
  have row (i : Instr) : decodeTableWord 8 (encode i).toNat = some i := decodeTableWord_encode (by decide) i
  have gap (code : OpCode) (h : code ∈ reservedCodes) : decodeTableWord 8 code.toNat = none :=
    decodeTableWord_reserved (by decide) h
  exact ⟨row .nop, row .millis, row .micros, row .tstart, row .tstop, row .idis, row .ien, row .tick, row .cnt,
    gap 0x3#4 (by decide), gap 0xA#4 (by decide), gap 0xB#4 (by decide), gap 0xC#4 (by decide),
    gap 0xD#4 (by decide), gap 0xE#4 (by decide), gap 0xF#4 (by decide)⟩

end Sys2Proof.Machine
end

section
/-! PROOFS. The host's run (notes/assumptions/4.md). The host's run and the run of a schedule are both sequences of
outcomes; no operation reads the schedule, so what stands in it after an operation can be put there before. -/

namespace Sys2Proof.Machine

/-- Go on from where an outcome goes on; a fault or a refusal stays what it is. -/
def andThen (o : Host.Outcome State Fault Refusal) (k : State → Host.Outcome State Fault Refusal) :
    Host.Outcome State Fault Refusal :=
  match o with
  | .next t => k t
  | .fault r => .fault r
  | .refused r => .refused r

theorem core_run_succ (n : Nat) (s : core.State) :
    Host.Core.run core (n + 1) s = andThen (core.step s) (Host.Core.run core n) := by
  rw [Host.Core.run]
  cases core.step s <;> rfl

theorem runEvents_cons (e : Event) (es : List Event) (s : State) :
    runEvents (e :: es) s = andThen (issue e s) (runEvents es) := rfl

theorem countTick_setSchedule (s : State) (sched : List Event) :
    countTick (s.setSchedule sched) = (countTick s).setSchedule sched := by
  unfold countTick
  rw [apply_ite (State.setSchedule · sched)]
  rfl

/-- No operation reads the schedule. -/
theorem exec_setSchedule (i : Instr) (s : State) (sched : List Event) :
    exec i (s.setSchedule sched) = andThen (exec i s) fun t => .next (t.setSchedule sched) := by
  cases i with
  | nop | millis | micros | tstart | tstop | idis | ien => rfl
  | tick =>
    have hguard : (s.setSchedule sched).tickEnabled = s.tickEnabled := rfl
    rw [exec_tick, exec_tick, execTick, execTick, hguard]
    split <;> rfl
  | cnt =>
    have hguard : (s.setSchedule sched).cntEnabled = s.cntEnabled := rfl
    rw [exec_cnt, exec_cnt, execCnt, execCnt, hguard, countTick_setSchedule]
    split <;> rfl

theorem perform_setSchedule (e : Event) (s : State) (sched : List Event) :
    perform e (s.setSchedule sched) = andThen (perform e s) fun t => .next (t.setSchedule sched) := by
  unfold perform
  split
  · exact exec_setSchedule _ s sched
  · rfl
  · rfl

theorem issue_setSchedule (e : Event) (s : State) (sched : List Event) :
    issue e (s.setSchedule sched) = andThen (issue e s) fun t => .next (t.setSchedule sched) := by
  have hvalid : (s.setSchedule sched).cfg.Valid ↔ s.cfg.Valid := Iff.rfl
  have hadmits : admits e (s.setSchedule sched) = admits e s := rfl
  simp only [issue, hvalid, hadmits, perform_setSchedule]
  split
  · split <;> rfl
  · rfl

theorem andThen_assoc (o : Host.Outcome State Fault Refusal) (f k : State → Host.Outcome State Fault Refusal) :
    andThen (andThen o f) k = andThen o fun t => andThen (f t) k := by
  cases o <;> rfl

/-- What follows an operation may replace the schedule itself. -/
theorem issue_setSchedule_andThen (e : Event) (s : State) (sched : List Event)
    (k : State → Host.Outcome State Fault Refusal) :
    andThen (issue e (s.setSchedule sched)) k = andThen (issue e s) fun t => k (t.setSchedule sched) := by
  rw [issue_setSchedule, andThen_assoc]
  rfl

/-- One step of the host's run performs the head of the schedule and leaves the rest. -/
theorem core_run_cons (n : Nat) (e : Event) (sched : List Event) (s : State) :
    Host.Core.run core (n + 1) (s.setSchedule (e :: sched)) =
      andThen (issue e s) fun t => Host.Core.run core n (t.setSchedule sched) := by
  have hstep : core.step (s.setSchedule (e :: sched)) = issue e (s.setSchedule sched) :=
    step_cons (State.setSchedule_schedule s (e :: sched))
  have hrun := core_run_succ n (s.setSchedule (e :: sched))
  rw [hstep] at hrun
  exact hrun.trans (issue_setSchedule_andThen e s sched _)

theorem runEvents_cons_setSchedule (e : Event) (es rest : List Event) (s : State) :
    runEvents (e :: es) (s.setSchedule rest) = andThen (issue e s) fun t => runEvents es (t.setSchedule rest) :=
  (runEvents_cons e es _).trans (issue_setSchedule_andThen e s rest _)

/-- The host's run of a schedule, from any state given that schedule and a rest. -/
theorem core_run_setSchedule_append (es rest : List Event) (s : State) :
    Host.Core.run core es.length (s.setSchedule (es ++ rest)) = runEvents es (s.setSchedule rest) := by
  induction es generalizing s with
  | nil => rfl
  | cons e es ih =>
    refine (core_run_cons es.length e (es ++ rest) s).trans ?_
    rw [runEvents_cons_setSchedule]
    exact congrArg (andThen (issue e s)) (funext ih)

/-- Settles O50, by induction on the schedule. -/
theorem coreRunPerformsTheSchedule : Obligations.CoreRunPerformsTheSchedule :=
  core_run_setSchedule_append

end Sys2Proof.Machine
end
